-- ==== Sys2Proof/Word.lean ====
section
/-! DEFINITION. The widths of the engine's values (00_scope R5, R8). Every value is unsigned. -/

namespace Sys2Proof

/-- A memory byte or the content of a general register: 8 bits (10_state R21, R30). -/
abbrev Byte := BitVec 8

/-- An opcode, `pc`, `I` or a return address: 16 bits (10_state R23, R25, R26; 30_encoding R90). -/
abbrev Word := BitVec 16

/-- A register number 0 to 15, the content of field X or Y (30_encoding R92). -/
abbrev Reg := BitVec 4

/-- The immediate N, a count 0 to 15 (30_encoding R92). -/
abbrev Nibble := BitVec 4

/-- The immediate NNN, an address 0x000 to 0xFFF (30_encoding R92). -/
abbrev Addr := BitVec 12

end Sys2Proof
end

