-- ==== Sys2Proof/Syntax.lean ====
section
/-! DEFINITION. The instructions, one constructor per row of spec/opcode_table.json (30_encoding R95), in its order. -/

namespace Sys2Proof

/-- The closed instruction set (30_encoding R90, R95). A constructor's arguments are the fields of its format (R91). -/
inductive Instr where
  /-- 00E0 -/
  | cls
  /-- 00EE -/
  | ret
  /-- 1NNN -/
  | jmp (nnn : Addr)
  /-- 2NNN -/
  | call (nnn : Addr)
  /-- 3XNN -/
  | sei (x : Reg) (nn : Byte)
  /-- 4XNN -/
  | sni (x : Reg) (nn : Byte)
  /-- 5XY0 -/
  | ser (x y : Reg)
  /-- 6XNN -/
  | ldi (x : Reg) (nn : Byte)
  /-- 7XNN -/
  | adi (x : Reg) (nn : Byte)
  /-- 8XY0 -/
  | mov (x y : Reg)
  /-- 8XY1 -/
  | orr (x y : Reg)
  /-- 8XY2 -/
  | and (x y : Reg)
  /-- 8XY3 -/
  | xor (x y : Reg)
  /-- 8XY4 -/
  | add (x y : Reg)
  /-- 8XY5 -/
  | sub (x y : Reg)
  /-- 8XY6 -/
  | shr (x y : Reg)
  /-- 8XY7 -/
  | rsb (x y : Reg)
  /-- 8XYE -/
  | shl (x y : Reg)
  /-- 9XY0 -/
  | snr (x y : Reg)
  /-- ANNN -/
  | lda (nnn : Addr)
  /-- BNNN -/
  | jpv (nnn : Addr)
  /-- CXNN -/
  | rnd (x : Reg) (nn : Byte)
  /-- DXYN -/
  | drw (x y : Reg) (n : Nibble)
  /-- EX9E -/
  | skp (x : Reg)
  /-- EXA1 -/
  | sknp (x : Reg)
  /-- FX07 -/
  | gdt (x : Reg)
  /-- FX0A -/
  | key (x : Reg)
  /-- FX15 -/
  | sdt (x : Reg)
  /-- FX18 -/
  | sst (x : Reg)
  /-- FX1E -/
  | adx (x : Reg)
  /-- FX29 -/
  | fnt (x : Reg)
  /-- FX33 -/
  | bcd (x : Reg)
  /-- FX55 -/
  | stm (x : Reg)
  /-- FX65 -/
  | ldm (x : Reg)
  /-- 0NNN, matched last -/
  | sys (nnn : Addr)
  deriving DecidableEq, Repr

end Sys2Proof
end

