-- ==== Sys2Proof/WellFormed.lean ====
section
/-! DEFINITION. Which instructions have an encoding of their own. -/

namespace Sys2Proof

/-- The fields' widths are in the types, so one check is left: SYS with NNN = 0x0E0 or 0x0EE has no word of its own,
since 0x00E0 and 0x00EE decode to CLS and RET, which are tried first (30_encoding R96, R98, R108). -/
def Instr.WellFormed : Instr → Bool
  | .sys nnn => nnn != 0x0E0#12 && nnn != 0x0EE#12
  | .cls => true
  | .ret => true
  | .jmp _ => true
  | .call _ => true
  | .sei _ _ => true
  | .sni _ _ => true
  | .ser _ _ => true
  | .ldi _ _ => true
  | .adi _ _ => true
  | .mov _ _ => true
  | .orr _ _ => true
  | .and _ _ => true
  | .xor _ _ => true
  | .add _ _ => true
  | .sub _ _ => true
  | .shr _ _ => true
  | .rsb _ _ => true
  | .shl _ _ => true
  | .snr _ _ => true
  | .lda _ => true
  | .jpv _ => true
  | .rnd _ _ => true
  | .drw _ _ _ => true
  | .skp _ => true
  | .sknp _ => true
  | .gdt _ => true
  | .key _ => true
  | .sdt _ => true
  | .sst _ => true
  | .adx _ => true
  | .fnt _ => true
  | .bcd _ => true
  | .stm _ => true
  | .ldm _ => true

end Sys2Proof
end

