-- ==== Sys2Proof/Decode.lean ====
section
/-! DEFINITION. The fields of an opcode, the ordered opcode table, the decoder and the encoder (30_encoding). -/

namespace Sys2Proof

/-! ## Fields (R92) -/

/-- `X = op[11:8]` -/
def fieldX (w : Word) : Reg := w.extractLsb' 8 4
/-- `Y = op[7:4]` -/
def fieldY (w : Word) : Reg := w.extractLsb' 4 4
/-- `N = op[3:0]` -/
def fieldN (w : Word) : Nibble := w.extractLsb' 0 4
/-- `NN = op[7:0]` -/
def fieldNN (w : Word) : Byte := w.extractLsb' 0 8
/-- `NNN = op[11:0]` -/
def fieldNNN (w : Word) : Addr := w.extractLsb' 0 12

/-- The five field values an encode function is given (R108). -/
structure Fields where
  x : Reg
  y : Reg
  n : Nibble
  nn : Byte
  nnn : Addr
  deriving DecidableEq, Repr

/-- Every field function is defined on every word (R92). -/
def fieldsOf (w : Word) : Fields where
  x := fieldX w
  y := fieldY w
  n := fieldN w
  nn := fieldNN w
  nnn := fieldNNN w

/-! ## Formats (R91) and the placing of fields (R108) -/

/-- The six formats of R91. -/
inductive Format where
  | z | a | xi | xy | xyn | xf
  deriving DecidableEq, Repr

/-- Format A: `NNN` -/
def placeA (nnn : Addr) : Word := nnn.setWidth 16
/-- Format XF: `X << 8` -/
def placeXF (x : Reg) : Word := x.setWidth 16 <<< 8
/-- Format XI: `(X << 8) | NN` -/
def placeXI (x : Reg) (nn : Byte) : Word := placeXF x ||| nn.setWidth 16
/-- Format XY: `(X << 8) | (Y << 4)` -/
def placeXY (x y : Reg) : Word := placeXF x ||| (y.setWidth 16 <<< 4)
/-- Format XYN: `(X << 8) | (Y << 4) | N` -/
def placeXYN (x y : Reg) (n : Nibble) : Word := placeXY x y ||| n.setWidth 16

/-- The fields of a format in their positions; the other fields are ignored (R108). -/
def Format.place : Format → Fields → Word
  | .z, _ => 0
  | .a, f => placeA f.nnn
  | .xi, f => placeXI f.x f.nn
  | .xy, f => placeXY f.x f.y
  | .xyn, f => placeXYN f.x f.y f.n
  | .xf, f => placeXF f.x

/-- The decode mask of a format (R91). -/
def Format.mask : Format → Word
  | .z => 0xFFFF
  | .a => 0xF000
  | .xi => 0xF000
  | .xy => 0xF00F
  | .xyn => 0xF000
  | .xf => 0xF0FF

/-! ## The opcode table (R95) -/

/-- An entry of the opcode table: `{ id, mask, pattern, mnemonic_template, execute_fn, encode_fn }` (R95). `make` is
the instruction the entry stands for, whose meaning is the `execute_fn`; the `encode_fn` is `Entry.encode`. -/
structure Entry where
  id : Nat
  pattern : Word
  mask : Word
  format : Format
  mnemonic : String
  make : Fields → Instr

/-- The opcode table in priority order, SYS last (R95, R96). -/
def opcodeTable : List Entry :=
  [⟨1, 0x00E0, 0xFFFF, .z, "CLS", fun _ => .cls⟩,
   ⟨2, 0x00EE, 0xFFFF, .z, "RET", fun _ => .ret⟩,
   ⟨3, 0x1000, 0xF000, .a, "JMP", fun f => .jmp f.nnn⟩,
   ⟨4, 0x2000, 0xF000, .a, "CALL", fun f => .call f.nnn⟩,
   ⟨5, 0x3000, 0xF000, .xi, "SEI", fun f => .sei f.x f.nn⟩,
   ⟨6, 0x4000, 0xF000, .xi, "SNI", fun f => .sni f.x f.nn⟩,
   ⟨7, 0x5000, 0xF00F, .xy, "SER", fun f => .ser f.x f.y⟩,
   ⟨8, 0x6000, 0xF000, .xi, "LDI", fun f => .ldi f.x f.nn⟩,
   ⟨9, 0x7000, 0xF000, .xi, "ADI", fun f => .adi f.x f.nn⟩,
   ⟨10, 0x8000, 0xF00F, .xy, "MOV", fun f => .mov f.x f.y⟩,
   ⟨11, 0x8001, 0xF00F, .xy, "ORR", fun f => .orr f.x f.y⟩,
   ⟨12, 0x8002, 0xF00F, .xy, "AND", fun f => .and f.x f.y⟩,
   ⟨13, 0x8003, 0xF00F, .xy, "XOR", fun f => .xor f.x f.y⟩,
   ⟨14, 0x8004, 0xF00F, .xy, "ADD", fun f => .add f.x f.y⟩,
   ⟨15, 0x8005, 0xF00F, .xy, "SUB", fun f => .sub f.x f.y⟩,
   ⟨16, 0x8006, 0xF00F, .xy, "SHR", fun f => .shr f.x f.y⟩,
   ⟨17, 0x8007, 0xF00F, .xy, "RSB", fun f => .rsb f.x f.y⟩,
   ⟨18, 0x800E, 0xF00F, .xy, "SHL", fun f => .shl f.x f.y⟩] ++
  [⟨19, 0x9000, 0xF00F, .xy, "SNR", fun f => .snr f.x f.y⟩,
   ⟨20, 0xA000, 0xF000, .a, "LDA", fun f => .lda f.nnn⟩,
   ⟨21, 0xB000, 0xF000, .a, "JPV", fun f => .jpv f.nnn⟩,
   ⟨22, 0xC000, 0xF000, .xi, "RND", fun f => .rnd f.x f.nn⟩,
   ⟨23, 0xD000, 0xF000, .xyn, "DRW", fun f => .drw f.x f.y f.n⟩,
   ⟨24, 0xE09E, 0xF0FF, .xf, "SKP", fun f => .skp f.x⟩,
   ⟨25, 0xE0A1, 0xF0FF, .xf, "SKNP", fun f => .sknp f.x⟩,
   ⟨26, 0xF007, 0xF0FF, .xf, "GDT", fun f => .gdt f.x⟩,
   ⟨27, 0xF00A, 0xF0FF, .xf, "KEY", fun f => .key f.x⟩,
   ⟨28, 0xF015, 0xF0FF, .xf, "SDT", fun f => .sdt f.x⟩,
   ⟨29, 0xF018, 0xF0FF, .xf, "SST", fun f => .sst f.x⟩,
   ⟨30, 0xF01E, 0xF0FF, .xf, "ADX", fun f => .adx f.x⟩,
   ⟨31, 0xF029, 0xF0FF, .xf, "FNT", fun f => .fnt f.x⟩,
   ⟨32, 0xF033, 0xF0FF, .xf, "BCD", fun f => .bcd f.x⟩,
   ⟨33, 0xF055, 0xF0FF, .xf, "STM", fun f => .stm f.x⟩,
   ⟨34, 0xF065, 0xF0FF, .xf, "LDM", fun f => .ldm f.x⟩,
   ⟨35, 0x0000, 0xF000, .a, "SYS", fun f => .sys f.nnn⟩]

/-- `(opcode & mask) == pattern` (R94). -/
def Entry.matches (e : Entry) (w : Word) : Bool := w &&& e.mask == e.pattern

/-- The entry's inverse encode function, `pattern | placed` (R108). -/
def Entry.encode (e : Entry) (f : Fields) : Word := e.pattern ||| e.format.place f

/-! ## The decoder (R94) -/

/-- The first entry whose masked word is its pattern, or no match (R94). -/
def lookup (w : Word) : Option Entry := opcodeTable.find? (fun e => e.matches w)

/-- The instruction a word stands for; `none` is "no match" (R94, R99). -/
def decodeWord (w : Word) : Option Instr := (lookup w).map (fun e => e.make (fieldsOf w))

/-- Why bytes are no instruction. -/
inductive DecodeError where
  /-- the word matches no entry of the table (R99) -/
  | noMatch (w : Word)
  /-- fewer than two bytes are given (R90) -/
  | truncated
  deriving DecidableEq, Repr

/-- A big-endian word: the byte at the lower address is the high byte (20_memory R61). -/
def wordOfBytes (hi lo : Byte) : Word := hi ++ lo

/-- The high byte of a word, stored at the lower address (20_memory R61). -/
def highByte (w : Word) : Byte := w.extractLsb' 8 8

/-- The low byte of a word, stored at the higher address (20_memory R61). -/
def lowByte (w : Word) : Byte := w.extractLsb' 0 8

/-- The first instruction of a list of bytes, lowest address first, and the rest. Every instruction is two bytes (R90). -/
def decodeBytes : List Byte → Except DecodeError (Instr × List Byte)
  | hi :: lo :: rest =>
    match decodeWord (wordOfBytes hi lo) with
    | some i => .ok (i, rest)
    | none => .error (.noMatch (wordOfBytes hi lo))
  | _ => .error .truncated

/-! ## The encoder (R108) -/

/-- The word of an instruction: its entry's pattern with the fields of its format placed (R91, R95, R108). -/
def encode : Instr → Word
  | .cls => 0x00E0
  | .ret => 0x00EE
  | .jmp nnn => 0x1000 ||| placeA nnn
  | .call nnn => 0x2000 ||| placeA nnn
  | .sei x nn => 0x3000 ||| placeXI x nn
  | .sni x nn => 0x4000 ||| placeXI x nn
  | .ser x y => 0x5000 ||| placeXY x y
  | .ldi x nn => 0x6000 ||| placeXI x nn
  | .adi x nn => 0x7000 ||| placeXI x nn
  | .mov x y => 0x8000 ||| placeXY x y
  | .orr x y => 0x8001 ||| placeXY x y
  | .and x y => 0x8002 ||| placeXY x y
  | .xor x y => 0x8003 ||| placeXY x y
  | .add x y => 0x8004 ||| placeXY x y
  | .sub x y => 0x8005 ||| placeXY x y
  | .shr x y => 0x8006 ||| placeXY x y
  | .rsb x y => 0x8007 ||| placeXY x y
  | .shl x y => 0x800E ||| placeXY x y
  | .snr x y => 0x9000 ||| placeXY x y
  | .lda nnn => 0xA000 ||| placeA nnn
  | .jpv nnn => 0xB000 ||| placeA nnn
  | .rnd x nn => 0xC000 ||| placeXI x nn
  | .drw x y n => 0xD000 ||| placeXYN x y n
  | .skp x => 0xE09E ||| placeXF x
  | .sknp x => 0xE0A1 ||| placeXF x
  | .gdt x => 0xF007 ||| placeXF x
  | .key x => 0xF00A ||| placeXF x
  | .sdt x => 0xF015 ||| placeXF x
  | .sst x => 0xF018 ||| placeXF x
  | .adx x => 0xF01E ||| placeXF x
  | .fnt x => 0xF029 ||| placeXF x
  | .bcd x => 0xF033 ||| placeXF x
  | .stm x => 0xF055 ||| placeXF x
  | .ldm x => 0xF065 ||| placeXF x
  | .sys nnn => 0x0000 ||| placeA nnn

/-- The two bytes of an instruction as memory holds them (20_memory R61). -/
def encodeBytes (i : Instr) : List Byte := [highByte (encode i), lowByte (encode i)]

/-! ## The host's reading of a table row -/

/-- The instruction word whose `nbits` low bits are those of `w`, every bit above them 0. -/
def tableWord (nbits w : Nat) : Word := BitVec.ofNat 16 (w % 2 ^ nbits)

/-- What the decoder reads from that word laid out as the hardware stores it. -/
def decodeTableWord (nbits w : Nat) : Option Instr :=
  match decodeBytes [highByte (tableWord nbits w), lowByte (tableWord nbits w)] with
  | .ok (i, _) => some i
  | .error _ => none

end Sys2Proof
end

