-- ==== Sys2Proof/Config.lean ====
section
/-! DEFINITION. The parameters of the engine (00_scope R4) and its one free value, the random byte (41_alu R183). -/

namespace Sys2Proof

/-- `MEM_SIZE`: addresses 0x000 to 0xFFF (00_scope R4, 20_memory R60). -/
def memSize : Nat := 4096

/-- The policy of ADX on VF (44_index_memory R241, R242). The spec names two booleans that must not both be true and
lets a model hold one three-valued field: the illegal pair cannot be written down (log 6). -/
inductive IndexPolicy where
  /-- (c): VF left untouched; both booleans false -/
  | untouched
  /-- (a): VF is the overflow; `quirk_index_overflow_flag` -/
  | overflowFlag
  /-- (b): VF forced to 0; `quirk_index_vf_flush` -/
  | vfFlush
  deriving DecidableEq, Repr

/-- `FONT_DATA`: 16 glyphs of 5 bytes (00_scope R4, 20_memory R70). -/
abbrev Font := Vector (Vector Byte 5) 16

/-- The default `FONT_DATA` (20_memory R71; the spec's default, D15; log 5). -/
def defaultFont : Font :=
  #v[#v[0xF0, 0x90, 0x90, 0x90, 0xF0], #v[0x20, 0x60, 0x20, 0x20, 0x70],
     #v[0xF0, 0x10, 0xF0, 0x80, 0xF0], #v[0xF0, 0x10, 0xF0, 0x10, 0xF0],
     #v[0x90, 0x90, 0xF0, 0x10, 0x10], #v[0xF0, 0x80, 0xF0, 0x10, 0xF0],
     #v[0xF0, 0x80, 0xF0, 0x90, 0xF0], #v[0xF0, 0x10, 0x20, 0x40, 0x40],
     #v[0xF0, 0x90, 0xF0, 0x90, 0xF0], #v[0xF0, 0x90, 0xF0, 0x10, 0xF0],
     #v[0xF0, 0x90, 0xF0, 0x90, 0x90], #v[0xE0, 0x90, 0xE0, 0x90, 0xE0],
     #v[0xF0, 0x80, 0x80, 0x80, 0xF0], #v[0xE0, 0x90, 0x90, 0x90, 0xE0],
     #v[0xF0, 0x80, 0xF0, 0x80, 0xF0], #v[0xF0, 0x80, 0xF0, 0x80, 0x80]]

/-- What the engine latches at reset and holds until the next one: the quirks (10_state R32; 70_reset R313) and the
configurable origins and font (00_scope R4; 70_reset R316). -/
structure Config where
  /-- `quirk_shift_uses_vy` -/
  shiftUsesVy : Bool
  /-- `quirk_index_overflow_flag` and `quirk_index_vf_flush` -/
  indexPolicy : IndexPolicy
  /-- `quirk_dump_increments_i` -/
  dumpIncrementsI : Bool
  /-- `PROGRAM_ORIGIN` -/
  programOrigin : Addr
  /-- `FONT_ORIGIN` -/
  fontOrigin : Addr
  /-- `FONT_DATA` -/
  fontData : Font
  deriving DecidableEq, Repr

/-- The default of every parameter (00_scope R4; D28). -/
def Config.default : Config where
  shiftUsesVy := false
  indexPolicy := .untouched
  dumpIncrementsI := false
  programOrigin := 0x200
  fontOrigin := 0x050
  fontData := defaultFont

/-- "`FONT_ORIGIN + 79 <= 0xFFF` is required of the parameter" (20_memory R70). -/
abbrev Config.Legal (c : Config) : Prop := c.fontOrigin.toNat + 79 ≤ 0xFFF

/-- The two booleans of 10_state R32 behind `indexPolicy`. -/
def Config.indexOverflowFlag (c : Config) : Bool := c.indexPolicy == .overflowFlag

/-- See `Config.indexOverflowFlag`. -/
def Config.indexVfFlush (c : Config) : Bool := c.indexPolicy == .vfFlush

/-- What the host presents at reset (70_reset R313, R316): four quirk bits, the origins and the font. The defaults are
those taken "if the host presents no values". -/
structure ResetInputs where
  /-- `quirk_shift_uses_vy`, bit 0 -/
  quirkShiftUsesVy : Bool := false
  /-- `quirk_index_overflow_flag`, bit 1 -/
  quirkIndexOverflowFlag : Bool := false
  /-- `quirk_index_vf_flush`, bit 2 -/
  quirkIndexVfFlush : Bool := false
  /-- `quirk_dump_increments_i`, bit 3 -/
  quirkDumpIncrementsI : Bool := false
  /-- `PROGRAM_ORIGIN` -/
  programOrigin : Addr := 0x200
  /-- `FONT_ORIGIN` -/
  fontOrigin : Addr := 0x050
  /-- `FONT_DATA` -/
  fontData : Font := defaultFont
  deriving DecidableEq, Repr

/-- FREE VALUE: the `n`-th byte the random source gives, "an 8-bit value about which the engine promises nothing"
(41_alu R183; U1; log 3). It has no body, so nothing can be proved of its value. -/
opaque Config.drawByte : Nat → Byte

end Sys2Proof
end

