-- ==== Sys2Proof/Machine/State.lean ====
section
/-! DEFINITION. The state of the engine as plain data (10_state R20) and its value after reset (10_state R40). -/

namespace Sys2Proof.Machine

/-- Memory as the cells that differ from the contents after the default reset: addresses strictly rising, no cell
equal to what an unlisted address reads as (Machine/Memory.lean). -/
abbrev Memory := List Host.Cell

/-- The framebuffer: 32 rows of 64 one-bit pixels, row 0 first; column `c` of a row is its bit `c` (10_state R31,
42_display R200; log 8). -/
abbrev Display := Vector (BitVec 64) 32

/-- The seven fault kinds (60_exceptions R271), in the order of their codes 1 to 7. Each is DEFINED by the spec and is
taken as a next state with the latch written (log 2). -/
inductive FaultKind where
  /-- code 1, the fetch phase: `pc > 4094` (R276) -/
  | fetchOutOfBounds
  /-- code 2, the decode phase: the word matches no entry (R272) -/
  | decodeFailure
  /-- code 3, SYS: always (R278) -/
  | machineCall
  /-- code 4, CALL: `sp = 15` (R273) -/
  | stackOverflow
  /-- code 5, RET: `sp = -1` (R274) -/
  | stackUnderflow
  /-- code 6, DRW, BCD, STM, LDM: the last byte address exceeds 0xFFF (R275) -/
  | memoryOutOfBounds
  /-- code 7, SKP, SKNP: `x[X] > 15` (R277) -/
  | keyIndexOutOfRange
  deriving DecidableEq, Repr

/-- The numeric codes of 60_exceptions R271. -/
def FaultKind.code : FaultKind → Nat
  | .fetchOutOfBounds => 1
  | .decodeFailure => 2
  | .machineCall => 3
  | .stackOverflow => 4
  | .stackUnderflow => 5
  | .memoryOutOfBounds => 6
  | .keyIndexOutOfRange => 7

/-- A fault record `(kind, opcode, pc)` (60_exceptions R270). -/
structure FaultRecord where
  kind : FaultKind
  opcode : Word
  pc : Word
  deriving DecidableEq, Repr

/-- A move of the host or of the engine at a cycle boundary (70_reset R316; 40_cycle_control R130, R132; log 1). -/
inductive HostMove where
  /-- one instruction cycle of a call of `step` that is in progress (R131, R132) -/
  | cycle
  /-- a call `step(state, n)` for which `k` ticks are owed (R132) -/
  | call (k n : Nat)
  /-- an input poll: the 16 key levels, and the keys pressed since the last poll whose press the levels alone do not
  show (10_state R36, R37) -/
  | poll (levels presses : BitVec 16)
  /-- `initialise` with what the host presents (70_reset R310, R313) -/
  | reset (inputs : ResetInputs)
  /-- a program load (70_reset R314) -/
  | load (image : List Byte)
  /-- a host write of one memory byte (20_memory R75) -/
  | write (address : Addr) (value : Byte)
  deriving DecidableEq, Repr

/-- The machine state (10_state R20). The last two fields are the model's own. -/
structure State where
  /-- `memory` (R30) -/
  mem : Memory
  /-- `display` (R31) -/
  display : Display
  /-- `pc` (R23) -/
  pc : Word
  /-- `I` (R25) -/
  i : Word
  /-- `stack[0]` to `stack[15]` (R26) -/
  stack : Vector Word 16
  /-- `sp + 1`, the number of return addresses held (R27; D26; log 7) -/
  depth : Fin 17
  /-- `DT` (R28) -/
  dt : Byte
  /-- `ST` (R29) -/
  st : Byte
  /-- V0 to VF (R21, R22) -/
  regs : Vector Byte 16
  /-- `key`: bit `k` is 1 while key `k` is held down (R36) -/
  key : BitVec 16
  /-- `just`: the just_pressed latches (R37) -/
  just : BitVec 16
  /-- `cfg` (R32) and the parameters latched with it -/
  cfg : Config
  /-- `iter` (R33) -/
  iter : Nat
  /-- the fault latch (R34) -/
  fault : Option FaultRecord
  /-- the model's own: how many random bytes have been drawn (log 3) -/
  draws : Nat
  /-- the model's own: the moves still to come, next first; when it is empty the engine moves (log 1) -/
  agenda : List HostMove
  deriving DecidableEq, Repr

/-- `sp`, -1 when the stack is empty (R27). -/
def State.sp (s : State) : Int := (s.depth.val : Int) - 1

/-- Why the machine stops. The seven fault kinds of the spec are not here: taking one is a next state. -/
inductive Fault where
  /-- raised by `step` when the latch holds a record and no host move is left: no transition is enabled any more
  (10_state R34, 60_exceptions R279, U4); SAFE, since the machine itself is stuck -/
  | halted (record : FaultRecord)
  deriving DecidableEq, Repr

/-- What the model gives no meaning to, each because the spec says so. -/
inductive Refusal where
  /-- an instruction without a meaning, by its mnemonic; raised by no arm of `exec`; SAFE -/
  | notModelled (mnemonic : String)
  /-- raised by FNT when VX holds more than 15: "UNSPECIFIED ... a model refuses" (44_index_memory R243; log 10); SAFE -/
  | fontDigitUnspecified (value : Byte)
  /-- raised by a host reset that presents both add-to-index quirks, or a font that does not fit
  (44_index_memory R242, 70_reset R313, 20_memory R70; log 6, log 9); SAFE -/
  | illegalConfiguration
  /-- raised by a host load of an image of odd length or too long (70_reset R314, U9; log 11); SAFE -/
  | malformedImage (length : Nat)
  deriving DecidableEq, Repr

/-- The state after reset with the default parameters (10_state R40, 70_reset R311). Memory lists nothing: an unlisted
address reads as after this reset, the font at FONT_ORIGIN and zero elsewhere. -/
def State.reset : State where
  mem := []
  display := Vector.replicate 32 0
  pc := 0x200
  i := 0
  stack := Vector.replicate 16 0
  depth := 0
  dt := 0
  st := 0
  regs := Vector.replicate 16 0
  key := 0
  just := 0
  cfg := Config.default
  iter := 0
  fault := none
  draws := 0
  agenda := []

end Sys2Proof.Machine
end

