-- ==== Sys2Proof/Machine/Memory.lean ====
section
/-! DEFINITION. Memory: one byte at a time over the canonical list of cells (20_memory R60, R64). -/

namespace Sys2Proof.Machine

/-- A font's byte `j`, `j` = 0 to 79: glyph `j / 5`, row `j % 5` (20_memory R70). Outside the font, 0. -/
def fontByte (f : Font) (j : Nat) : Byte :=
  if h : j < 80 then (f[j / 5]'(by omega))[j % 5]'(by omega) else 0

/-- What an unlisted address reads as: the contents after the default reset, the default font at 0x050 to 0x09F and
zero elsewhere (10_state R40, 20_memory R68, R70, R71; log 4, log 5). -/
def Memory.background (a : Nat) : Byte :=
  if 0x050 ≤ a then fontByte defaultFont (a - 0x050) else 0

/-- The byte at an address. -/
def Memory.read : Memory → Nat → Byte
  | [], a => Memory.background a
  | (a', b) :: rest, a => if a = a' then b else Memory.read rest a

/-- A cell put in at its place among rising addresses, in the stead of a cell of the same address. -/
def Memory.insert (a : Nat) (b : Byte) : Memory → Memory
  | [] => [(a, b)]
  | (a', b') :: rest =>
    if a < a' then (a, b) :: (a', b') :: rest
    else if a = a' then (a, b) :: rest
    else (a', b') :: Memory.insert a b rest

/-- Memory with the byte at an address replaced; writing what an unlisted address reads as removes the cell. -/
def Memory.write (m : Memory) (a : Nat) (b : Byte) : Memory :=
  if b = Memory.background a then m.filter (fun c => c.1 ≠ a) else m.insert a b

/-- The canonical form: addresses strictly rising, each in 0x000 to 0xFFF, no cell equal to what its address reads as
unlisted. -/
abbrev Memory.wf (m : Memory) : Prop :=
  m.Pairwise (fun c d => c.1 < d.1) ∧ ∀ c ∈ m, c.1 < memSize ∧ c.2 ≠ Memory.background c.1

/-- `MemWrite(base, n, v)`: the bytes of `v` at rising addresses, lowest first (00_scope R7, 20_memory R64). -/
def Memory.writeBytes : Memory → Nat → List Byte → Memory
  | m, _, [] => m
  | m, base, b :: rest => Memory.writeBytes (m.write base b) (base + 1) rest

/-- `MemRead(base, n)`: `n` bytes at rising addresses, lowest first (00_scope R7, 20_memory R64). -/
def Memory.readBytes (m : Memory) (base : Nat) : Nat → List Byte
  | 0 => []
  | n + 1 => m.read base :: Memory.readBytes m (base + 1) n

/-- The bounds of a data access of `n` bytes at `base`: its last byte lies in memory; no bytes need nothing
(20_memory R66, D23). -/
def inBounds (base n : Nat) : Bool := n = 0 || base + n - 1 ≤ 0xFFF

end Sys2Proof.Machine
end

