-- ==== Sys2Proof/Machine/Screen.lean ====
section
/-! DEFINITION. The framebuffer's pixels (42_display R200, 10_state R31). -/

namespace Sys2Proof.Machine

/-- `y mod 32` (42_display R200). -/
def wrapRow (y : Nat) : Fin 32 := ⟨y % 32, by omega⟩

/-- `x mod 64` (42_display R200). -/
def wrapCol (x : Nat) : Fin 64 := ⟨x % 64, by omega⟩

/-- `display[y][x]` -/
def Display.pixel (d : Display) (y : Fin 32) (x : Fin 64) : Bool := d[y].getLsbD x.val

/-- `display[y][x] <- display[y][x] ^ 1` -/
def Display.flip (d : Display) (y : Fin 32) (x : Fin 64) : Display :=
  d.set y (d[y] ^^^ (1#64 <<< x.val))

/-- The display with every pixel 0 (42_display R201). -/
def Display.blank : Display := Vector.replicate 32 0

/-- Plot one set sprite bit: XOR the pixel, and note whether it was set (42_display R202). -/
def plot (y : Fin 32) (x : Fin 64) (acc : Display × Bool) : Display × Bool :=
  (acc.1.flip y x, acc.2 || acc.1.pixel y x)

/-- One row of a sprite: bit 7 of the byte is the leftmost pixel (42_display R202, D23). -/
def drawRow (b : Byte) (x0 : Nat) (y : Fin 32) (acc : Display × Bool) : Display × Bool :=
  (List.range 8).foldl (fun acc k => if b.getLsbD (7 - k) then plot y (wrapCol (x0 + k)) acc else acc) acc

/-- The rows of a sprite from row `row` on, the top left corner at column `x0`, row `y0` (42_display R202). -/
def drawRows (x0 y0 : Nat) : Nat → List Byte → Display × Bool → Display × Bool
  | _, [], acc => acc
  | row, b :: rest, acc => drawRows x0 y0 (row + 1) rest (drawRow b x0 (wrapRow (y0 + row)) acc)

/-- A whole sprite on a display: the new display, and the collision (42_display R202). -/
def drawSprite (x0 y0 : Nat) (bytes : List Byte) (d : Display) : Display × Bool :=
  drawRows x0 y0 0 bytes (d, false)

end Sys2Proof.Machine
end

