-- ==== Sys2Proof/Machine/Ops.lean ====
section
/-! DEFINITION. The named operations over the state: one update per field, the registers, the program counter, the
stack, completing a cycle and TAKING A FAULT (60_exceptions R270, R279). -/

namespace Sys2Proof.Machine

/-- What one step answers. -/
abbrev Result := Host.Outcome State Fault Refusal

/-! ## One update per field -/

def State.setMem (v : Memory) (s : State) : State := { s with mem := v }
def State.setDisplay (v : Display) (s : State) : State := { s with display := v }
def State.setPc (v : Word) (s : State) : State := { s with pc := v }
def State.setI (v : Word) (s : State) : State := { s with i := v }
def State.setStack (v : Vector Word 16) (s : State) : State := { s with stack := v }
def State.setDepth (v : Fin 17) (s : State) : State := { s with depth := v }
def State.setDt (v : Byte) (s : State) : State := { s with dt := v }
def State.setSt (v : Byte) (s : State) : State := { s with st := v }
def State.setRegs (v : Vector Byte 16) (s : State) : State := { s with regs := v }
def State.setKey (v : BitVec 16) (s : State) : State := { s with key := v }
def State.setJust (v : BitVec 16) (s : State) : State := { s with just := v }
def State.setIter (v : Nat) (s : State) : State := { s with iter := v }
def State.setFault (v : Option FaultRecord) (s : State) : State := { s with fault := v }
def State.setDraws (v : Nat) (s : State) : State := { s with draws := v }
def State.setAgenda (v : List HostMove) (s : State) : State := { s with agenda := v }

/-! ## Registers (10_state R21) -/

/-- `x[r]` -/
def State.reg (s : State) (r : Reg) : Byte := s.regs[r.toNat]'r.isLt

/-- `x[r] <- v` -/
def State.setReg (r : Reg) (v : Byte) (s : State) : State := s.setRegs (s.regs.set r.toNat v r.isLt)

/-- VF, the flag register (10_state R22). -/
def vf : Reg := 0xF

/-! ## The cycle (40_cycle_control R131) -/

/-- `pc <- a + 2`, before the execute phase. -/
def State.advance (s : State) : State := s.setPc (s.pc + 2)

/-- The end of a cycle that completes: `iter <- iter + 1` (10_state R33). -/
def complete (s : State) : Result := .next (s.setIter (s.iter + 1))

/-- TAKING A FAULT, from the state before the cycle: the record `(kind, opcode, pc)` goes into the latch, its `pc` the
address fetched from, and nothing else changes (60_exceptions R270, R279, R282; log 2). -/
def raise (kind : FaultKind) (opcode : Word) (s : State) : Result := .next (s.setFault (some ⟨kind, opcode, s.pc⟩))

/-- A skip: `pc <- pc + 2` beyond the advance if the condition holds (40_cycle_control R142). -/
def State.skipIf (c : Bool) (s : State) : State := if c then s.setPc (s.pc + 2) else s

/-- `pc <- pc - 2`, back to the executing instruction (43_keypad_timers R223). -/
def State.rewind (s : State) : State := s.setPc (s.pc - 2)

/-! ## The return stack (10_state R26, R27; 40_cycle_control R133, R134) -/

/-- `sp <- sp + 1; stack[sp] <- v`, or nothing if sixteen addresses are held. -/
def State.push (v : Word) (s : State) : Option State :=
  if h : s.depth.val < 16 then
    some ((s.setStack (s.stack.set s.depth.val v h)).setDepth ⟨s.depth.val + 1, by omega⟩)
  else none

/-- `stack[sp]` and `sp <- sp - 1`, or nothing if the stack is empty; the slot keeps its value. -/
def State.pop (s : State) : Option (Word × State) :=
  if h : 0 < s.depth.val then
    some (s.stack[s.depth.val - 1]'(by omega), s.setDepth ⟨s.depth.val - 1, by omega⟩)
  else none

/-! ## Ranges of registers (44_index_memory R245, R246) -/

/-- The values of V0 to VX, rising. -/
def State.regsUpTo (x : Reg) (s : State) : List Byte :=
  (List.range (x.toNat + 1)).map (fun j => s.reg (BitVec.ofNat 4 j))

/-- `x[j] <- bytes[j]` for every `j`, from register `j` on. -/
def State.loadRegs : Nat → List Byte → State → State
  | _, [], s => s
  | j, b :: rest, s => State.loadRegs (j + 1) rest (s.setReg (BitVec.ofNat 4 j) b)

end Sys2Proof.Machine
end

