-- ==== Sys2Proof/Machine/Flags.lean ====
section
/-! DEFINITION. Every result and flag computation (41_alu R170, 44_index_memory R241), and the order of the two writes
(41_alu R171). -/

namespace Sys2Proof.Machine

/-- A flag as the 8-bit value 0 or 1 (10_state R22). -/
def flagByte (b : Bool) : Byte := if b then 1 else 0

/-- `zext_9(a) + zext_9(b)` (41_alu R178). -/
def sum9 (a b : Byte) : BitVec 9 := a.setWidth 9 + b.setWidth 9

/-- `s[7:0]` (41_alu R178). -/
def addResult (a b : Byte) : Byte := (sum9 a b).setWidth 8

/-- `s[8]`, the carry (41_alu R178). -/
def addCarry (a b : Byte) : Bool := (sum9 a b).getLsbD 8

/-- `(a - b) mod 256` (41_alu R179). -/
def subResult (a b : Byte) : Byte := a - b

/-- Not borrow: 1 exactly when the minuend is at least the subtrahend (41_alu R170, R179). -/
def notBorrow (a b : Byte) : Bool := b.toNat ≤ a.toNat

/-- `v >> 1` (41_alu R180). -/
def shiftRightResult (v : Byte) : Byte := v >>> 1

/-- `v[0]` (41_alu R180). -/
def shiftRightOut (v : Byte) : Bool := v.getLsbD 0

/-- `(v << 1) mod 256` (41_alu R182). -/
def shiftLeftResult (v : Byte) : Byte := v <<< 1

/-- `v[7]` (41_alu R182). -/
def shiftLeftOut (v : Byte) : Bool := v.getLsbD 7

/-- `zext_17(I) + zext_17(x[X])` (44_index_memory R241). -/
def indexSum (i : Word) (v : Byte) : Nat := i.toNat + v.toNat

/-- `s mod 4096` (44_index_memory R241). -/
def indexResult (i : Word) (v : Byte) : Word := BitVec.ofNat 16 (indexSum i v % 4096)

/-- `s > 0xFFF` (44_index_memory R241, D18). -/
def indexOverflow (i : Word) (v : Byte) : Bool := 0xFFF < indexSum i v

/-- The result is written to VX, then the flag to VF, so with X = F the flag is what VF holds (41_alu R171, D8). -/
def State.setRegThenFlag (x : Reg) (result : Byte) (flag : Bool) (s : State) : State :=
  (s.setReg x result).setReg vf (flagByte flag)

/-- The policies (a), (b), (c) of ADX on VF (44_index_memory R241, R242). -/
def State.indexFlag (overflow : Bool) (s : State) : State :=
  match s.cfg.indexPolicy with
  | .overflowFlag => s.setReg vf (flagByte overflow)
  | .vfFlush => s.setReg vf 0
  | .untouched => s

end Sys2Proof.Machine
end

