-- ==== Sys2Proof/Machine/Operands.lean ====
section
/-! DEFINITION. The operand forms: registers by number, zero-extended immediates (30_encoding R93), register-indirect
through `I` (44_index_memory), a key number (43_keypad_timers R220). -/

namespace Sys2Proof.Machine

/-- `zext_16(NNN)`, an absolute address (30_encoding R93). -/
def absolute (nnn : Addr) : Word := nnn.setWidth 16

/-- The operand of a shift: VY under the quirk, else VX (41_alu R180, R182). -/
def shiftOperand (x y : Reg) (s : State) : Byte := if s.cfg.shiftUsesVy then s.reg y else s.reg x

/-- The key number a register names, from the whole register: none above 15 (43_keypad_timers R220). -/
def keyNumber (x : Reg) (s : State) : Option Nat := if (s.reg x).toNat ≤ 15 then some (s.reg x).toNat else none

/-- The address of the first byte a memory instruction moves: the full 16-bit `I` (44_index_memory; 20_memory R66). -/
def dataAddress (s : State) : Nat := s.i.toNat

/-- How many bytes STM and LDM move: `X + 1` (20_memory R64). -/
def rangeLength (x : Reg) : Nat := x.toNat + 1

/-- The three decimal digits of a byte, hundreds first (44_index_memory R244). -/
def decimalDigits (v : Byte) : List Byte :=
  [BitVec.ofNat 8 (v.toNat / 100), BitVec.ofNat 8 (v.toNat / 10 % 10), BitVec.ofNat 8 (v.toNat % 10)]

/-- The column a sprite starts at, `x[X] mod 64` (42_display R202). -/
def spriteColumn (x : Reg) (s : State) : Nat := (s.reg x).toNat % 64

/-- The row a sprite starts at, `x[Y] mod 32` (42_display R202). -/
def spriteRow (y : Reg) (s : State) : Nat := (s.reg y).toNat % 32

/-- The lowest index of a set just_pressed bit (43_keypad_timers R223). -/
def lowestPressed (just : BitVec 16) : Option Nat := (List.range 16).find? (fun k => just.getLsbD k)

/-- `I <- I + X + 1` under the auto-increment quirk, unmasked (44_index_memory R247). -/
def State.dumpIncrement (x : Reg) (s : State) : State :=
  if s.cfg.dumpIncrementsI then s.setI (s.i + BitVec.ofNat 16 (rangeLength x)) else s

end Sys2Proof.Machine
end

