-- ==== Sys2Proof/Machine/Alu.lean ====
section
/-! DEFINITION. The 8-bit ALU and register instructions (41_alu). None of them faults. -/

namespace Sys2Proof.Machine

/-- LDI Vx, nn (R172). -/
def execLdi (x : Reg) (nn : Byte) (s : State) : Result := complete (s.advance.setReg x nn)

/-- ADI Vx, nn (R173): no carry. -/
def execAdi (x : Reg) (nn : Byte) (s : State) : Result := complete (s.advance.setReg x (addResult (s.reg x) nn))

/-- MOV Vx, Vy (R174). -/
def execMov (x y : Reg) (s : State) : Result := complete (s.advance.setReg x (s.reg y))

/-- ORR Vx, Vy (R175). -/
def execOrr (x y : Reg) (s : State) : Result := complete (s.advance.setReg x (s.reg x ||| s.reg y))

/-- AND Vx, Vy (R176). -/
def execAnd (x y : Reg) (s : State) : Result := complete (s.advance.setReg x (s.reg x &&& s.reg y))

/-- XOR Vx, Vy (R177). -/
def execXor (x y : Reg) (s : State) : Result := complete (s.advance.setReg x (s.reg x ^^^ s.reg y))

/-- ADD Vx, Vy (R178). -/
def execAdd (x y : Reg) (s : State) : Result :=
  complete (s.advance.setRegThenFlag x (addResult (s.reg x) (s.reg y)) (addCarry (s.reg x) (s.reg y)))

/-- SUB Vx, Vy (R179): VX minus VY. -/
def execSub (x y : Reg) (s : State) : Result :=
  complete (s.advance.setRegThenFlag x (subResult (s.reg x) (s.reg y)) (notBorrow (s.reg x) (s.reg y)))

/-- RSB Vx, Vy (R181): VY minus VX. -/
def execRsb (x y : Reg) (s : State) : Result :=
  complete (s.advance.setRegThenFlag x (subResult (s.reg y) (s.reg x)) (notBorrow (s.reg y) (s.reg x)))

/-- SHR Vx, Vy (R180). -/
def execShr (x y : Reg) (s : State) : Result :=
  complete (s.advance.setRegThenFlag x (shiftRightResult (shiftOperand x y s)) (shiftRightOut (shiftOperand x y s)))

/-- SHL Vx, Vy (R182). -/
def execShl (x y : Reg) (s : State) : Result :=
  complete (s.advance.setRegThenFlag x (shiftLeftResult (shiftOperand x y s)) (shiftLeftOut (shiftOperand x y s)))

/-- RND with the byte `r` drawn: `x[X] <- r & NN`, one draw used up (R184). -/
def rndWith (r : Byte) (x : Reg) (nn : Byte) (s : State) : Result :=
  complete ((s.advance.setReg x (r &&& nn)).setDraws (s.draws + 1))

/-- RND Vx, nn (R184): `draw_byte()` is the free value `Config.drawByte` at this draw (R183; log 3). -/
def execRnd (x : Reg) (nn : Byte) (s : State) : Result := rndWith (Config.drawByte s.draws) x nn s

end Sys2Proof.Machine
end

