-- ==== Sys2Proof/Machine/Control.lean ====
section
/-! DEFINITION. Stack, jumps, skips and the machine call (40_cycle_control). Every meaning starts in the state before
the cycle, whose `pc` is the instruction's own address, and ends after the whole cycle (log 13). -/

namespace Sys2Proof.Machine

/-- RET (R133). -/
def execRet (s : State) : Result :=
  match s.advance.pop with
  | some (target, t) => complete (t.setPc target)
  | none => raise .stackUnderflow (encode .ret) s

/-- CALL nnn (R134): the value pushed is the advanced `pc`. -/
def execCall (nnn : Addr) (s : State) : Result :=
  match s.advance.push s.advance.pc with
  | some t => complete (t.setPc (absolute nnn))
  | none => raise .stackOverflow (encode (.call nnn)) s

/-- JMP nnn (R135). -/
def execJmp (nnn : Addr) (s : State) : Result := complete (s.advance.setPc (absolute nnn))

/-- JPV nnn (R136): `NNN + V0`, a 16-bit sum. -/
def execJpv (nnn : Addr) (s : State) : Result :=
  complete (s.advance.setPc (absolute nnn + (s.reg 0).setWidth 16))

/-- SEI Vx, nn (R137). -/
def execSei (x : Reg) (nn : Byte) (s : State) : Result := complete (s.advance.skipIf (s.reg x == nn))

/-- SNI Vx, nn (R138). -/
def execSni (x : Reg) (nn : Byte) (s : State) : Result := complete (s.advance.skipIf (s.reg x != nn))

/-- SER Vx, Vy (R139). -/
def execSer (x y : Reg) (s : State) : Result := complete (s.advance.skipIf (s.reg x == s.reg y))

/-- SNR Vx, Vy (R140). -/
def execSnr (x y : Reg) (s : State) : Result := complete (s.advance.skipIf (s.reg x != s.reg y))

/-- SYS nnn (R141): its effect is the fault MachineCall. -/
def execSys (nnn : Addr) (s : State) : Result := raise .machineCall (encode (.sys nnn)) s

end Sys2Proof.Machine
end

