-- ==== Sys2Proof/Machine/Drawing.lean ====
section
/-! DEFINITION. The display instructions CLS and DRW (42_display). -/

namespace Sys2Proof.Machine

/-- CLS (R201). -/
def execCls (s : State) : Result := complete (s.advance.setDisplay Display.blank)

/-- The display and the collision of DRW: `n` bytes from `I` on at (VX mod 64, VY mod 32) (R202). -/
def spriteOutcome (x y : Reg) (n : Nibble) (s : State) : Display × Bool :=
  drawSprite (spriteColumn x s) (spriteRow y s) (s.mem.readBytes (dataAddress s) n.toNat) s.display

/-- DRW Vx, Vy, n (R202): the range is checked first; VF is the collision, written once, last. -/
def execDrw (x y : Reg) (n : Nibble) (s : State) : Result :=
  if inBounds (dataAddress s) n.toNat then
    complete ((s.advance.setDisplay (spriteOutcome x y n s).1).setReg vf (flagByte (spriteOutcome x y n s).2))
  else raise .memoryOutOfBounds (encode (.drw x y n)) s

end Sys2Proof.Machine
end

