-- ==== Sys2Proof/Machine/Index.lean ====
section
/-! DEFINITION. The index register and memory instructions (44_index_memory). -/

namespace Sys2Proof.Machine

/-- LDA nnn (R240). -/
def execLda (nnn : Addr) (s : State) : Result := complete (s.advance.setI (absolute nnn))

/-- ADX Vx (R241): the masked sum, then VF by policy. -/
def execAdx (x : Reg) (s : State) : Result :=
  complete ((s.advance.setI (indexResult s.i (s.reg x))).indexFlag (indexOverflow s.i (s.reg x)))

/-- The address of glyph `d`: `FONT_ORIGIN + 5 * d` (R243). -/
def glyphAddress (c : Config) (d : Nat) : Word := BitVec.ofNat 16 (c.fontOrigin.toNat + 5 * d)

/-- FNT Vx (R243): above 15 "UNSPECIFIED ... a model refuses" (log 10). -/
def execFnt (x : Reg) (s : State) : Result :=
  if (s.reg x).toNat ≤ 15 then complete (s.advance.setI (glyphAddress s.cfg (s.reg x).toNat))
  else .refused (.fontDigitUnspecified (s.reg x))

/-- BCD Vx (R244). -/
def execBcd (x : Reg) (s : State) : Result :=
  if inBounds (dataAddress s) 3 then
    complete (s.advance.setMem (s.mem.writeBytes (dataAddress s) (decimalDigits (s.reg x))))
  else raise .memoryOutOfBounds (encode (.bcd x)) s

/-- STM Vx (R245, R247). -/
def execStm (x : Reg) (s : State) : Result :=
  if inBounds (dataAddress s) (rangeLength x) then
    complete ((s.advance.setMem (s.mem.writeBytes (dataAddress s) (s.regsUpTo x))).dumpIncrement x)
  else raise .memoryOutOfBounds (encode (.stm x)) s

/-- LDM Vx (R246, R247). -/
def execLdm (x : Reg) (s : State) : Result :=
  if inBounds (dataAddress s) (rangeLength x) then
    complete ((s.advance.loadRegs 0 (s.mem.readBytes (dataAddress s) (rangeLength x))).dumpIncrement x)
  else raise .memoryOutOfBounds (encode (.ldm x)) s

end Sys2Proof.Machine
end

