-- ==== Sys2Proof/Machine/Keypad.lean ====
section
/-! DEFINITION. The keypad and timer instructions (43_keypad_timers). -/

namespace Sys2Proof.Machine

/-- SKP Vx (R221): skip if the key VX names is down. -/
def execSkp (x : Reg) (s : State) : Result :=
  match keyNumber x s with
  | some k => complete (s.advance.skipIf (s.key.getLsbD k))
  | none => raise .keyIndexOutOfRange (encode (.skp x)) s

/-- SKNP Vx (R222): skip if the key VX names is not down. -/
def execSknp (x : Reg) (s : State) : Result :=
  match keyNumber x s with
  | some k => complete (s.advance.skipIf (!s.key.getLsbD k))
  | none => raise .keyIndexOutOfRange (encode (.sknp x)) s

/-- KEY Vx (R223): the lowest set just_pressed index, or the rewind; `just` is not cleared (D24). -/
def execKey (x : Reg) (s : State) : Result :=
  match lowestPressed s.just with
  | some k => complete (s.advance.setReg x (BitVec.ofNat 8 k))
  | none => complete s.advance.rewind

/-- GDT Vx (R224). -/
def execGdt (x : Reg) (s : State) : Result := complete (s.advance.setReg x s.dt)

/-- SDT Vx (R225). -/
def execSdt (x : Reg) (s : State) : Result := complete (s.advance.setDt (s.reg x))

/-- SST Vx (R226). -/
def execSst (x : Reg) (s : State) : Result := complete (s.advance.setSt (s.reg x))

end Sys2Proof.Machine
end

