-- ==== Sys2Proof/Machine/Cycle.lean ====
section
/-! DEFINITION. The instruction cycle (40_cycle_control R131), the timer tick (60_exceptions R284), the host's moves
(70_reset R316) and which of them a step makes (40_cycle_control R130, R132; log 1). -/

namespace Sys2Proof.Machine

/-! ## The instruction cycle -/

/-- The word at `pc`, read from memory at the moment of the cycle (20_memory R62, R74). -/
def State.fetchWord (s : State) : Word := wordOfBytes (s.mem.read s.pc.toNat) (s.mem.read (s.pc.toNat + 1))

/-- One cycle of an engine that is not halted (R131): fetch check, fetch, decode, then the instruction's meaning,
which advances `pc`, executes and counts. -/
def cycle (s : State) : Result :=
  if 4094 < s.pc.toNat then raise .fetchOutOfBounds 0x0000 s
  else
    match decodeWord s.fetchWord with
    | some i => exec i s
    | none => raise .decodeFailure s.fetchWord s

/-! ## The timers -/

/-- `max(v - k, 0)` (60_exceptions R284). -/
def countDown (v : Byte) (k : Nat) : Byte := BitVec.ofNat 8 (v.toNat - k)

/-- The tick transition with `k` ticks; not enabled while halted (60_exceptions R279, R284). -/
def tick (k : Nat) (s : State) : State :=
  match s.fault with
  | some _ => s
  | none => (s.setDt (countDown s.dt k)).setSt (countDown s.st k)

/-- The sound signal `ST > 0` (60_exceptions R287). -/
def beep (s : State) : Bool := 0 < s.st.toNat

/-! ## Reset and load -/

/-- What the host presents at reset, if it is legal: not both add-to-index quirks, and a font inside memory
(70_reset R313, 44_index_memory R242, 20_memory R70). -/
def latch (r : ResetInputs) : Option Config :=
  let config (p : IndexPolicy) : Option Config :=
    if r.fontOrigin.toNat + 79 ≤ 0xFFF then
      some { shiftUsesVy := r.quirkShiftUsesVy, indexPolicy := p, dumpIncrementsI := r.quirkDumpIncrementsI,
             programOrigin := r.programOrigin, fontOrigin := r.fontOrigin, fontData := r.fontData }
    else none
  match r.quirkIndexOverflowFlag, r.quirkIndexVfFlush with
  | false, false => config .untouched
  | true, false => config .overflowFlag
  | false, true => config .vfFlush
  | true, true => none

/-- The 80 bytes of a font (20_memory R70). -/
def fontBytes (f : Font) : List Byte := (List.range 80).map (fontByte f)

/-- Memory after a reset: all zero, then the font copied to FONT_ORIGIN (20_memory R70, 70_reset R312). The 80 zeros
clear the default font, which is what unlisted addresses there read as. -/
def resetMemory (c : Config) : Memory :=
  (Memory.writeBytes [] 0x050 (List.replicate 80 0)).writeBytes c.fontOrigin.toNat (fontBytes c.fontData)

/-- `initialise`: every component takes its value of 10_state R40 (70_reset R310 to R313). The model's own fields go
on: earlier draws are not repeated (log 3) and the moves to come still come (log 1). -/
def initialise (c : Config) (s : State) : State :=
  { State.reset with cfg := c, pc := c.programOrigin.setWidth 16, mem := resetMemory c, draws := s.draws,
                     agenda := s.agenda }

/-- The requirements on an image: even length, and it fits above PROGRAM_ORIGIN (70_reset R314). -/
def imageFits (c : Config) (image : List Byte) : Bool :=
  image.length % 2 = 0 && image.length ≤ memSize - c.programOrigin.toNat

/-- Program load: the image verbatim from PROGRAM_ORIGIN on (70_reset R314). -/
def loadImage (image : List Byte) (s : State) : State :=
  s.setMem (s.mem.writeBytes s.cfg.programOrigin.toNat image)

/-! ## Input -/

/-- The input poll: `just[k]` is set iff key `k` went from up to down since the last poll, seen in the levels or
released again before this poll; then `key` holds the levels (10_state R36, R37). DESIGN CHOICE: R37 names no earlier
poll for the first one after a reset; it is compared with the levels 0 that the reset leaves, so a key held down across
the reset is latched (log 16). -/
def poll (levels presses : BitVec 16) (s : State) : State :=
  (s.setJust ((levels &&& ~~~s.key) ||| presses)).setKey levels

/-! ## The assembler's cursor write -/

/-- "Writes the resulting 16-bit word big-endian at the cursor, advancing it by 2" (30_encoding R108). DESIGN CHOICE: the
spec bounds the cursor nowhere, so it is any number; from 4095 on a cell outside 0x000 to 0xFFF is listed, which no move
of the machine does (log 17). -/
def assembleAt (cursor : Nat) (i : Instr) (m : Memory) : Memory × Nat :=
  (m.writeBytes cursor (encodeBytes i), cursor + 2)

/-! ## The moves -/

/-- One move, with the rest of the agenda already in place (70_reset R316; 40_cycle_control R132). A call first ticks,
then its `n` cycles are the next moves; a cycle of a halted engine does nothing. -/
def applyMove : HostMove → State → Result
  | .cycle, s =>
    match s.fault with
    | some _ => .next s
    | none => cycle s
  | .call k n, s =>
    match s.fault with
    | some _ => .next s
    | none => .next ((tick k s).setAgenda (List.replicate n .cycle ++ s.agenda))
  | .poll levels presses, s => .next (poll levels presses s)
  | .reset r, s =>
    match latch r with
    | some c => .next (initialise c s)
    | none => .refused .illegalConfiguration
  | .load image, s =>
    if imageFits s.cfg image then .next (loadImage image s) else .refused (.malformedImage image.length)
  | .write a v, s => .next (s.setMem (s.mem.write a.toNat v))

/-- What happens next: the first move of the agenda, or, when none is left, a cycle of the engine. An engine that is
halted with no move left is stuck (U4; log 2). -/
def nextMove (s : State) : Result :=
  match s.agenda with
  | m :: rest => applyMove m (s.setAgenda rest)
  | [] =>
    match s.fault with
    | some r => .fault (.halted r)
    | none => cycle s

/-- `s` with the word `w` where the next step fetches: no move pending, the engine enabled, and a `pc` that can be
fetched from (log 14). -/
def placeNextWord (w : Word) (s : State) : State :=
  let pc : Word := if s.pc.toNat ≤ 4094 then s.pc else 0x200
  (((s.setPc pc).setAgenda []).setFault none).setMem (s.mem.writeBytes pc.toNat [highByte w, lowByte w])

end Sys2Proof.Machine
end

