-- ==== Sys2Proof/Machine/Step.lean ====
section
/-! DEFINITION. The step, and a table word placed where it is fetched. -/

namespace Sys2Proof.Machine

/-- One move: of the agenda, or of the engine (Machine/Cycle.lean). -/
def step (s : State) : Host.Outcome State Fault Refusal := nextMove s

/-- `s` with the instruction word whose `nbits` low bits are `w` placed where the next step fetches. -/
def State.withFetchWord (s : State) (nbits w : Nat) : State := placeNextWord (tableWord nbits w) s

end Sys2Proof.Machine
end

