-- ==== Sys2Proof/Safety.lean ====
section
/-! DEFINITION. What holds in every state of a good run (10_state R42), and the words the claims use: which parts of the
state an instruction leaves alone. -/

namespace Sys2Proof.Machine

/-- The invariant of the machine: memory in canonical form and inside the address space, and the bounds of
10_state R42 (c) and (d) with what they rest on: return addresses held on the stack are at most 0x1000
(40_cycle_control R133), and the font fits (20_memory R70). R42 (a), (b), (e) and (f) are in the types. -/
abbrev State.Inv (s : State) : Prop :=
  s.mem.wf ∧ s.i.toNat ≤ 0x1000 ∧ s.pc.toNat ≤ 0x10FE ∧
    (∀ k : Fin 16, k.val < s.depth.val → s.stack[k].toNat ≤ 0x1000) ∧ s.cfg.Legal

/-- The states the machine can come to from reset, whatever moves the host makes. -/
inductive Reachable : State → Prop where
  | reset (moves : List HostMove) : Reachable (State.reset.setAgenda moves)
  | step {s t : State} : Reachable s → Machine.step s = .next t → Reachable t

/-- The parts of the state that instructions write, apart from `pc`, `iter` and the fault latch (10_state R41). -/
inductive Part where
  | memory | display | index | stack | delayTimer | soundTimer | registers | draws
  deriving DecidableEq, Repr

/-- A part is the same in two states; memory byte by byte, registers one by one. -/
def Part.Same : Part → State → State → Prop
  | .memory, s, t => ∀ a, t.mem.read a = s.mem.read a
  | .display, s, t => t.display = s.display
  | .index, s, t => t.i = s.i
  | .stack, s, t => t.stack = s.stack ∧ t.depth = s.depth
  | .delayTimer, s, t => t.dt = s.dt
  | .soundTimer, s, t => t.st = s.st
  | .registers, s, t => ∀ r, t.reg r = s.reg r
  | .draws, s, t => t.draws = s.draws

/-- What no instruction writes: the key bits, the quirks, and the model's agenda (10_state R32, R36, R37). -/
def SameInputs (s t : State) : Prop :=
  t.key = s.key ∧ t.just = s.just ∧ t.cfg = s.cfg ∧ t.agenda = s.agenda

/-- The frame of a cycle that completes: every part but those listed is unchanged, the inputs and the fault latch are
unchanged, and the cycle is counted (10_state R33). -/
def Frame (changed : List Part) (s t : State) : Prop :=
  (∀ p, p ∉ changed → p.Same s t) ∧ SameInputs s t ∧ t.fault = s.fault ∧ t.iter = s.iter + 1

/-- How many columns a pixel lies to the right of a sprite's left edge, modulo 64 (42_display R202). -/
def columnOffset (x0 : Nat) (x : Fin 64) : Nat := (x.val + 64 - x0 % 64) % 64

/-- How many rows a pixel lies below a sprite's top edge, modulo 32 (42_display R202). -/
def rowOffset (y0 : Nat) (y : Fin 32) : Nat := (y.val + 32 - y0 % 32) % 32

/-- Whether a sprite's byte lights a column: within 8 columns, the most significant bit leftmost (42_display R202). -/
def byteLights (b : Byte) (x0 : Nat) (x : Fin 64) : Bool :=
  columnOffset x0 x < 8 && b.getLsbD (7 - columnOffset x0 x)

/-- Whether a sprite of `bytes` at column `x0`, row `y0` lights a pixel (42_display R202). -/
def spriteLights (bytes : List Byte) (x0 y0 : Nat) (y : Fin 32) (x : Fin 64) : Bool :=
  match bytes[rowOffset y0 y]? with
  | some b => byteLights b x0 x
  | none => false

/-- What comes next is a cycle, the engine's own or one of a call in progress, and `rest` are the moves after it
(40_cycle_control R131, R132; log 1). -/
def CycleIsNext (s : State) (rest : List HostMove) : Prop :=
  (s.agenda = [] ∧ rest = []) ∨ s.agenda = .cycle :: rest

/-- The state after a faulting cycle: the record in the latch and nothing else (60_exceptions R279). -/
def faulted (kind : FaultKind) (opcode : Word) (s : State) : State := { s with fault := some ⟨kind, opcode, s.pc⟩ }

/-- Which registers an instruction may write: its destination, VF where it writes a flag, V0 to VX for LDM
(10_state R22, R41). -/
def writesReg (c : Config) (r : Reg) : Instr → Bool
  | .cls => false
  | .ret => false
  | .jmp _ => false
  | .call _ => false
  | .sei _ _ => false
  | .sni _ _ => false
  | .ser _ _ => false
  | .ldi x _ => r == x
  | .adi x _ => r == x
  | .mov x _ => r == x
  | .orr x _ => r == x
  | .and x _ => r == x
  | .xor x _ => r == x
  | .add x _ => r == x || r == vf
  | .sub x _ => r == x || r == vf
  | .shr x _ => r == x || r == vf
  | .rsb x _ => r == x || r == vf
  | .shl x _ => r == x || r == vf
  | .snr _ _ => false
  | .lda _ => false
  | .jpv _ => false
  | .rnd x _ => r == x
  | .drw _ _ _ => r == vf
  | .skp _ => false
  | .sknp _ => false
  | .gdt x => r == x
  | .key x => r == x
  | .sdt _ => false
  | .sst _ => false
  | .adx _ => r == vf && (c.indexOverflowFlag || c.indexVfFlush)
  | .fnt _ => false
  | .bcd _ => false
  | .stm _ => false
  | .ldm x => r.toNat ≤ x.toNat
  | .sys _ => false

/-- Which parts of the state other than the registers (see `writesReg`) an instruction may write (10_state R20, R41). -/
def writesPart (c : Config) : Part → Instr → Bool
  | .memory, i => match i with
    | .bcd _ => true
    | .stm _ => true
    | _ => false
  | .display, i => match i with
    | .cls => true
    | .drw _ _ _ => true
    | _ => false
  | .index, i => match i with
    | .lda _ => true
    | .adx _ => true
    | .fnt _ => true
    | .stm _ => c.dumpIncrementsI
    | .ldm _ => c.dumpIncrementsI
    | _ => false
  | .stack, i => match i with
    | .call _ => true
    | .ret => true
    | _ => false
  | .delayTimer, i => match i with
    | .sdt _ => true
    | _ => false
  | .soundTimer, i => match i with
    | .sst _ => true
    | _ => false
  | .registers, _ => true
  | .draws, i => match i with
    | .rnd _ _ => true
    | _ => false

end Sys2Proof.Machine
end

