-- ==== Sys2Proof/Certificates/Slice0/Obligations.lean ====
section
/-! DEFINITION. The statements for the provers, each about what the spec's rules say the machine does. The patterns of
the decode clauses are those of 30_encoding R95, written as nibbles. A statement that rests on a decision the spec marks
as its own (D<n>) or on an entry of the assumption log says so. The words are those each instruction's own rule gives;
that the opcode map is the standard one is the spec's D3 and GK1 throughout (log 12). -/

open Sys2Proof Sys2Proof.Machine

/-! ## Encoding -/

/-- Decoding an encoded well-formed instruction gives it back, as a word and as bytes. -/
def Obligations.DecodeEncodeRoundTrip : Prop :=
  ∀ i : Instr, i.WellFormed = true →
    decodeWord (encode i) = some i ∧ ∀ rest, decodeBytes (encodeBytes i ++ rest) = .ok (i, rest)

/-- 30_encoding R108: what each format's encode function builds, the round-trip law for every entry but the catch-all,
SYS, whose words decode to SYS again but for 0x0E0 and 0x0EE, and the assembler's write at the cursor. That the law
holds for the rows is the spec's own inference; here it is stated for the catch-all too. R108 bounds the cursor nowhere:
that the write is stated for every cursor, also from 4095 on, where it lists cells outside 0x000 to 0xFFF, is the
model's choice (log 17). -/
def Obligations.EncodeFunctionsInvertDecode : Prop :=
  (∀ e ∈ opcodeTable, ∀ f : Fields, e.encode f = e.pattern ||| (match e.format with
    | .z => 0
    | .a => f.nnn.setWidth 16
    | .xi => (f.x.setWidth 16 <<< 8) ||| f.nn.setWidth 16
    | .xy => (f.x.setWidth 16 <<< 8) ||| (f.y.setWidth 16 <<< 4)
    | .xyn => (f.x.setWidth 16 <<< 8) ||| (f.y.setWidth 16 <<< 4) ||| f.n.setWidth 16
    | .xf => f.x.setWidth 16 <<< 8)) ∧
  (∀ (w : Word) (e : Entry), lookup w = some e → e.encode (fieldsOf w) = w) ∧
  (∀ nnn : Addr, decodeWord (encode (.sys nnn)) =
    if nnn = 0x0E0 then some .cls else if nnn = 0x0EE then some .ret else some (.sys nnn)) ∧
  (∀ (cursor : Nat) (i : Instr) (m : Memory),
    (assembleAt cursor i m).2 = cursor + 2 ∧
    (((assembleAt cursor i m).1.read cursor).toNat * 256 + ((assembleAt cursor i m).1.read (cursor + 1)).toNat
      = (encode i).toNat) ∧
    ∀ a, a ≠ cursor → a ≠ cursor + 1 → (assembleAt cursor i m).1.read a = m.read a)

/-- A word that decodes is the word of the instruction it decodes to, SYS included, and that instruction is
well-formed. -/
def Obligations.DecodedWordIsTheEncoding : Prop :=
  ∀ (w : Word) (i : Instr), decodeWord w = some i → encode i = w ∧ i.WellFormed = true

/-- 30_encoding R96 and R97, without the counts: two entries that match one word are CLS and SYS, for 0x00E0, or RET
and SYS, for 0x00EE. -/
def Obligations.EntriesOverlapOnlyAtTheCatchAll : Prop :=
  ∀ (w : Word) (e e' : Entry), e ∈ opcodeTable → e' ∈ opcodeTable → e.id < e'.id →
    e.matches w = true → e'.matches w = true → e'.id = 35 ∧ ((w = 0x00E0 ∧ e.id = 1) ∨ (w = 0x00EE ∧ e.id = 2))

/-- 30_encoding R99, without the counts: exactly these words are "no match". -/
def Obligations.IllegalWordsAreExactlyThese : Prop :=
  ∀ w : Word, decodeWord w = none ↔
    let t := w.toNat / 4096
    let n := w.toNat % 16
    let nn := w.toNat % 256
    (t = 5 ∧ n ≠ 0) ∨ (t = 8 ∧ (n = 8 ∨ n = 9 ∨ n = 10 ∨ n = 11 ∨ n = 12 ∨ n = 13 ∨ n = 15)) ∨
    (t = 9 ∧ n ≠ 0) ∨ (t = 14 ∧ nn ≠ 0x9E ∧ nn ≠ 0xA1) ∨
    (t = 15 ∧ nn ≠ 0x07 ∧ nn ≠ 0x0A ∧ nn ≠ 0x15 ∧ nn ≠ 0x18 ∧ nn ≠ 0x1E ∧ nn ≠ 0x29 ∧ nn ≠ 0x33 ∧ nn ≠ 0x55 ∧
      nn ≠ 0x65)

/-- A few words written out from 30_encoding R95, decoded (95_test_vectors T410). -/
def Obligations.ChosenWordsDecode : Prop :=
  decodeWord 0b0000000011100000 = some .cls ∧ decodeWord 0b0010101010111100 = some (.call 0xABC) ∧
  decodeWord 0b1000101010111110 = some (.shl 0xA 0xB) ∧ decodeWord 0b1101000100101010 = some (.drw 1 2 0xA) ∧
  decodeWord 0b1110111110011110 = some (.skp 0xF) ∧ decodeWord 0b1111000001100101 = some (.ldm 0) ∧
  decodeWord 0b0000000011101111 = some (.sys 0x0EF) ∧ decodeWord 0b1000101010111000 = none

/-! ## The cycle, the step and faults -/

/-- 40_cycle_control R131: when no host move is pending, or the next move is a cycle, and the engine is not halted, a
step at a `pc` that can be fetched from is the meaning of the decoded instruction; `exec` advances `pc`, counts the
cycle, and nothing stands around it (the moves are log 1, the reach of `exec` log 13). -/
def Obligations.StepRunsTheDecodedInstruction : Prop :=
  ∀ (s : State) (i : Instr), s.fault = none → s.pc.toNat ≤ 4094 → decodeWord s.fetchWord = some i →
    (s.agenda = [] → step s = exec i s) ∧
    (∀ rest, s.agenda = .cycle :: rest → step s = exec i (s.setAgenda rest))

/-- A word that decodes, placed where the next step fetches, is the instruction that step runs (log 14). -/
def Obligations.PlacedWordRunsNext : Prop :=
  ∀ (s : State) (w : Nat) (i : Instr), decodeTableWord 16 w = some i →
    step (s.withFetchWord 16 w) = exec i (s.withFetchWord 16 w)

/-- 20_memory R62: the fetched word is the two bytes at `pc`, the lower address high, read from the same memory that
data instructions write: nothing else of the state has a part in it. -/
def Obligations.FetchIsTheBigEndianWordAtPc : Prop :=
  (∀ s : State, s.pc.toNat ≤ 4094 →
    s.fetchWord = ((s.mem.read s.pc.toNat).setWidth 16 <<< 8) ||| (s.mem.read (s.pc.toNat + 1)).setWidth 16) ∧
  (∀ s t : State, t.pc = s.pc → Part.memory.Same s t → t.fetchWord = s.fetchWord)

/-- 20_memory R67, 60_exceptions R276: a fetch above 4094 faults with opcode 0x0000, in a cycle of the engine's own or
of a call; the latch is the spec's decision D12, taking it as a next state log 2, the moves log 1. -/
def Obligations.FetchAbove4094Faults : Prop :=
  ∀ (s : State) (rest : List HostMove), CycleIsNext s rest → s.fault = none → 4094 < s.pc.toNat →
    step s = .next (faulted .fetchOutOfBounds 0x0000 (s.setAgenda rest))

/-- 30_encoding R99, 60_exceptions R272: a word that decodes to nothing faults, in a cycle of the engine's own or of a
call (D12; log 1, log 2). -/
def Obligations.IllegalWordFaults : Prop :=
  ∀ (s : State) (rest : List HostMove), CycleIsNext s rest → s.fault = none → s.pc.toNat ≤ 4094 →
    decodeWord s.fetchWord = none → step s = .next (faulted .decodeFailure s.fetchWord (s.setAgenda rest))

/-- 60_exceptions R270, R279, first half: a cycle that faults, the engine's own or one of a call, changes the latch
alone and uses up its move; the record holds the word fetched, or 0x0000 where none was, and the address fetched from
(decisions D12, D13; log 1, log 2). -/
def Obligations.FaultsArePrecise : Prop :=
  ∀ (s t : State) (rest : List HostMove), CycleIsNext s rest → s.fault = none → step s = .next t → t.fault ≠ none →
    ∃ kind op, t = faulted kind op (s.setAgenda rest) ∧ (kind = .fetchOutOfBounds → op = 0x0000 ∧ 4094 < s.pc.toNat) ∧
      (kind ≠ .fetchOutOfBounds → op = s.fetchWord)

/-- 60_exceptions R279, second half; 40_cycle_control R132: a halted engine is stuck when no host move is left, a cycle
or a call does nothing, and no move but a reset changes anything the engine writes apart from memory (log 1, log 2). -/
def Obligations.HaltedEngineStaysHalted : Prop :=
  ∀ (s : State) (r : FaultRecord), s.fault = some r →
    (s.agenda = [] → step s = .fault (.halted r)) ∧
    (∀ rest, s.agenda = .cycle :: rest → step s = .next (s.setAgenda rest)) ∧
    (∀ k n rest, s.agenda = .call k n :: rest → step s = .next (s.setAgenda rest)) ∧
    (∀ k, tick k s = s) ∧
    (∀ t, step s = .next t → (∀ inputs rest, s.agenda ≠ .reset inputs :: rest) →
      t.fault = s.fault ∧ t.pc = s.pc ∧ t.iter = s.iter ∧ t.cfg = s.cfg ∧
      ∀ p : Part, p ≠ .memory → p.Same s t)

/-- 10_state R33: the cycle counter grows by one in a cycle that completes and not in one that faults or is left out
because the engine is halted, be it the engine's own or one of a call (D25; log 1, log 2). -/
def Obligations.IterCountsCompletedCycles : Prop :=
  ∀ (s t : State) (rest : List HostMove), CycleIsNext s rest → step s = .next t → t.iter = if t.fault = none then s.iter + 1 else s.iter

/-- Every instruction answers a next state in every state, but FNT above 15, which is refused (log 10). That SYS always,
and RET, CALL, DRW, BCD, STM, LDM, SKP and SKNP on a fault, answer a next state, with the latch written, is the model's
reading of a fault (log 2): 10_state R24 says that a faulting cycle has no successor state. -/
def Obligations.EveryInstructionAnswersANextState : Prop :=
  ∀ (i : Instr) (s : State), (∃ t, exec i s = .next t) ∨
    ∃ x, i = .fnt x ∧ 15 < (s.reg x).toNat ∧ exec i s = .refused (.fontDigitUnspecified (s.reg x))

/-- 10_state R20, R22, R41: no register changes but those the instruction names or flags. -/
def Obligations.RegistersHaveTheirWriters : Prop :=
  ∀ (i : Instr) (s t : State) (r : Reg), exec i s = .next t → writesReg s.cfg r i = false → t.reg r = s.reg r

/-- 10_state R20, R41: each other part of the state is written only by the instructions listed for it, and no
instruction writes the key bits, the quirks or the agenda. -/
def Obligations.PartsHaveTheirWriters : Prop :=
  ∀ (i : Instr) (s t : State), exec i s = .next t →
    (∀ p : Part, writesPart s.cfg p i = false → p.Same s t) ∧ SameInputs s t

/-! ## Control transfer (40_cycle_control) -/

/-- R135. JMP, and the jump to its own address that changes `iter` alone. -/
def Obligations.JmpSetsPc : Prop :=
  ∀ (nnn : Addr) (s : State), decodeWord (0x1#4 ++ nnn) = some (.jmp nnn) ∧
    (∃ t, exec (.jmp nnn) s = .next t ∧ t.pc.toNat = nnn.toNat ∧ Frame [] s t) ∧
    (s.pc.toNat = nnn.toNat → exec (.jmp nnn) s = .next (s.setIter (s.iter + 1)))

/-- R136. JPV: the sum is not reduced (the spec's decision D11). -/
def Obligations.JpvAddsV0 : Prop :=
  ∀ (nnn : Addr) (s : State), decodeWord (0xB#4 ++ nnn) = some (.jpv nnn) ∧
    ∃ t, exec (.jpv nnn) s = .next t ∧ t.pc.toNat = nnn.toNat + (s.reg 0).toNat ∧ Frame [] s t

/-- R134. CALL with room on the stack, and StackOverflow without (the latch is decision D12, log 2). -/
def Obligations.CallPushesTheNextAddress : Prop :=
  ∀ (nnn : Addr) (s : State), decodeWord (0x2#4 ++ nnn) = some (.call nnn) ∧
    (s.sp ≠ 15 → ∃ t, exec (.call nnn) s = .next t ∧ t.pc.toNat = nnn.toNat ∧ t.sp = s.sp + 1 ∧
      (∀ k : Fin 16, t.stack[k] = if (k.val : Int) = t.sp then s.pc + 2 else s.stack[k]) ∧ Frame [.stack] s t) ∧
    (s.sp = 15 → exec (.call nnn) s = .next (faulted .stackOverflow (0x2#4 ++ nnn) s))

/-- R133. RET with an address on the stack, and StackUnderflow without (the latch is decision D12, log 2). -/
def Obligations.RetPopsTheReturnAddress : Prop :=
  ∀ s : State, decodeWord 0x00EE = some .ret ∧
    (∀ k : Fin 16, s.sp = k.val → ∃ t, exec .ret s = .next t ∧ t.pc = s.stack[k] ∧ t.sp = s.sp - 1 ∧
      t.stack = s.stack ∧ Frame [.stack] s t) ∧
    (s.sp = -1 → exec .ret s = .next (faulted .stackUnderflow 0x00EE s))

/-- 95_test_vectors T405, the source's property 6: RET, from any state whose stack is as CALL left it, returns to the
instruction immediately after the CALL. -/
def Obligations.CallThenRetReturns : Prop :=
  ∀ (nnn : Addr) (s : State), s.sp ≠ 15 → ∃ t, exec (.call nnn) s = .next t ∧
    ∀ t' : State, t'.stack = t.stack → t'.depth = t.depth →
      ∃ u, exec .ret t' = .next u ∧ u.pc = s.pc + 2 ∧ u.sp = s.sp

/-- R137. SEI. -/
def Obligations.SeiSkipsIfEqual : Prop :=
  ∀ (x : Reg) (nn : Byte) (s : State), decodeWord (0x3#4 ++ x ++ nn) = some (.sei x nn) ∧
    ∃ t, exec (.sei x nn) s = .next t ∧ t.pc = (if s.reg x = nn then s.pc + 4 else s.pc + 2) ∧ Frame [] s t

/-- R139. SER. -/
def Obligations.SerSkipsIfEqual : Prop :=
  ∀ (x y : Reg) (s : State), decodeWord (0x5#4 ++ x ++ y ++ 0x0#4) = some (.ser x y) ∧
    ∃ t, exec (.ser x y) s = .next t ∧ t.pc = (if s.reg x = s.reg y then s.pc + 4 else s.pc + 2) ∧ Frame [] s t

/-- R138, R140. SNI and SNR, which the spec adds to the source's skips (its decision D7). -/
def Obligations.SniAndSnrSkipIfDifferent : Prop :=
  ∀ (x y : Reg) (nn : Byte) (s : State),
    (decodeWord (0x4#4 ++ x ++ nn) = some (.sni x nn) ∧
      ∃ t, exec (.sni x nn) s = .next t ∧ t.pc = (if s.reg x = nn then s.pc + 2 else s.pc + 4) ∧ Frame [] s t) ∧
    (decodeWord (0x9#4 ++ x ++ y ++ 0x0#4) = some (.snr x y) ∧
      ∃ t, exec (.snr x y) s = .next t ∧ t.pc = (if s.reg x = s.reg y then s.pc + 2 else s.pc + 4) ∧ Frame [] s t)

/-- R141. SYS takes the fault MachineCall in every state (the latch is decision D12, log 2). Its words are those of
0NNN that CLS and RET leave. -/
def Obligations.SysTakesMachineCall : Prop :=
  ∀ (nnn : Addr) (s : State),
    (nnn ≠ 0x0E0 → nnn ≠ 0x0EE → decodeWord (0x0#4 ++ nnn) = some (.sys nnn)) ∧
    exec (.sys nnn) s = .next (faulted .machineCall (0x0#4 ++ nnn) s)

/-! ## Registers and arithmetic (41_alu) -/

/-- R172. LDI. -/
def Obligations.LdiLoadsTheImmediate : Prop :=
  ∀ (x : Reg) (nn : Byte) (s : State), decodeWord (0x6#4 ++ x ++ nn) = some (.ldi x nn) ∧
    ∃ t, exec (.ldi x nn) s = .next t ∧ (∀ r, t.reg r = if r = x then nn else s.reg r) ∧ t.pc = s.pc + 2 ∧
      Frame [.registers] s t

/-- R173. ADI: modulo 256, and no flag. -/
def Obligations.AdiAddsWithoutCarry : Prop :=
  ∀ (x : Reg) (nn : Byte) (s : State), decodeWord (0x7#4 ++ x ++ nn) = some (.adi x nn) ∧
    ∃ t, exec (.adi x nn) s = .next t ∧ (t.reg x).toNat = ((s.reg x).toNat + nn.toNat) % 256 ∧
      (∀ r, r ≠ x → t.reg r = s.reg r) ∧ t.pc = s.pc + 2 ∧ Frame [.registers] s t

/-- R174. MOV. -/
def Obligations.MovCopies : Prop :=
  ∀ (x y : Reg) (s : State), decodeWord (0x8#4 ++ x ++ y ++ 0x0#4) = some (.mov x y) ∧
    ∃ t, exec (.mov x y) s = .next t ∧ (∀ r, t.reg r = if r = x then s.reg y else s.reg r) ∧ t.pc = s.pc + 2 ∧
      Frame [.registers] s t

/-- R175 to R177. ORR, AND and XOR, bit by bit, and no flag. -/
def Obligations.BitwiseInstructions : Prop :=
  ∀ (x y : Reg) (s : State),
    (decodeWord (0x8#4 ++ x ++ y ++ 0x1#4) = some (.orr x y) ∧ ∃ t, exec (.orr x y) s = .next t ∧
      (∀ b, (t.reg x).getLsbD b = ((s.reg x).getLsbD b || (s.reg y).getLsbD b)) ∧
      (∀ r, r ≠ x → t.reg r = s.reg r) ∧ t.pc = s.pc + 2 ∧ Frame [.registers] s t) ∧
    (decodeWord (0x8#4 ++ x ++ y ++ 0x2#4) = some (.and x y) ∧ ∃ t, exec (.and x y) s = .next t ∧
      (∀ b, (t.reg x).getLsbD b = ((s.reg x).getLsbD b && (s.reg y).getLsbD b)) ∧
      (∀ r, r ≠ x → t.reg r = s.reg r) ∧ t.pc = s.pc + 2 ∧ Frame [.registers] s t) ∧
    (decodeWord (0x8#4 ++ x ++ y ++ 0x3#4) = some (.xor x y) ∧ ∃ t, exec (.xor x y) s = .next t ∧
      (∀ b, (t.reg x).getLsbD b = ((s.reg x).getLsbD b ^^ (s.reg y).getLsbD b)) ∧
      (∀ r, r ≠ x → t.reg r = s.reg r) ∧ t.pc = s.pc + 2 ∧ Frame [.registers] s t)

/-- R178, R171. ADD: the sum modulo 256 and the carry; with X = F, VF ends as the carry (the spec's decision D8). -/
def Obligations.AddSetsTheCarry : Prop :=
  ∀ (x y : Reg) (s : State), decodeWord (0x8#4 ++ x ++ y ++ 0x4#4) = some (.add x y) ∧
    ∃ t, exec (.add x y) s = .next t ∧
      (x ≠ vf → (t.reg x).toNat = ((s.reg x).toNat + (s.reg y).toNat) % 256) ∧
      t.reg vf = (if 255 < (s.reg x).toNat + (s.reg y).toNat then 1 else 0) ∧
      (∀ r, r ≠ x → r ≠ vf → t.reg r = s.reg r) ∧ t.pc = s.pc + 2 ∧ Frame [.registers] s t

/-- R179, R181, R171. SUB and RSB: the difference modulo 256 and not-borrow; with X = F, VF ends as the flag (the spec's
decision D8). -/
def Obligations.SubAndRsbSetNotBorrow : Prop :=
  ∀ (x y : Reg) (s : State),
    (decodeWord (0x8#4 ++ x ++ y ++ 0x5#4) = some (.sub x y) ∧ ∃ t, exec (.sub x y) s = .next t ∧
      (x ≠ vf → (t.reg x).toNat = ((s.reg x).toNat + 256 - (s.reg y).toNat) % 256) ∧
      t.reg vf = (if (s.reg y).toNat ≤ (s.reg x).toNat then 1 else 0) ∧
      (∀ r, r ≠ x → r ≠ vf → t.reg r = s.reg r) ∧ t.pc = s.pc + 2 ∧ Frame [.registers] s t) ∧
    (decodeWord (0x8#4 ++ x ++ y ++ 0x7#4) = some (.rsb x y) ∧ ∃ t, exec (.rsb x y) s = .next t ∧
      (x ≠ vf → (t.reg x).toNat = ((s.reg y).toNat + 256 - (s.reg x).toNat) % 256) ∧
      t.reg vf = (if (s.reg x).toNat ≤ (s.reg y).toNat then 1 else 0) ∧
      (∀ r, r ≠ x → r ≠ vf → t.reg r = s.reg r) ∧ t.pc = s.pc + 2 ∧ Frame [.registers] s t)

/-- R180, R182, R171. SHR and SHL: the operand is VY under the quirk, else VX; VF is the bit shifted out; with X = F, VF
ends as the flag (the spec's decision D8). -/
def Obligations.ShiftsByOne : Prop :=
  ∀ (x y : Reg) (s : State) (v : Byte), v = (if s.cfg.shiftUsesVy then s.reg y else s.reg x) →
    (decodeWord (0x8#4 ++ x ++ y ++ 0x6#4) = some (.shr x y) ∧ ∃ t, exec (.shr x y) s = .next t ∧
      (x ≠ vf → (t.reg x).toNat = v.toNat / 2) ∧ (t.reg vf).toNat = v.toNat % 2 ∧
      (∀ r, r ≠ x → r ≠ vf → t.reg r = s.reg r) ∧ t.pc = s.pc + 2 ∧ Frame [.registers] s t) ∧
    (decodeWord (0x8#4 ++ x ++ y ++ 0xE#4) = some (.shl x y) ∧ ∃ t, exec (.shl x y) s = .next t ∧
      (x ≠ vf → (t.reg x).toNat = v.toNat * 2 % 256) ∧ (t.reg vf).toNat = v.toNat / 128 ∧
      (∀ r, r ≠ x → r ≠ vf → t.reg r = s.reg r) ∧ t.pc = s.pc + 2 ∧ Frame [.registers] s t)

/-- R183, R184. RND: the byte drawn under the mask; the byte is the free value of this draw and the draw is used up
(log 3). With any byte in its stead the rest is the same. -/
def Obligations.RndMasksADrawnByte : Prop :=
  ∀ (x : Reg) (nn : Byte) (s : State), decodeWord (0xC#4 ++ x ++ nn) = some (.rnd x nn) ∧
    (∃ t, exec (.rnd x nn) s = .next t ∧
      (∀ k, (t.reg x).getLsbD k = ((Config.drawByte s.draws).getLsbD k && nn.getLsbD k)) ∧
      (∀ r, r ≠ x → t.reg r = s.reg r) ∧ t.draws = s.draws + 1 ∧ t.pc = s.pc + 2 ∧ Frame [.registers, .draws] s t) ∧
    exec (.rnd x nn) s = rndWith (Config.drawByte s.draws) x nn s ∧
    ∀ b : Byte, ∃ t, rndWith b x nn s = .next t ∧
      (∀ k, (t.reg x).getLsbD k = (b.getLsbD k && nn.getLsbD k)) ∧ (∀ r, r ≠ x → t.reg r = s.reg r) ∧
      t.draws = s.draws + 1 ∧ t.pc = s.pc + 2 ∧ Frame [.registers, .draws] s t

/-! ## Display (42_display) -/

/-- R201. CLS. -/
def Obligations.ClsClearsEveryPixel : Prop :=
  ∀ s : State, decodeWord 0x00E0 = some .cls ∧
    ∃ t, exec .cls s = .next t ∧ (∀ y x, t.display.pixel y x = false) ∧ t.pc = s.pc + 2 ∧ Frame [.display] s t

/-- R202. DRW in bounds: every pixel is XORed with the sprite's bit there, and VF says whether a set pixel was hit (the
bit order is the spec's decision D23). -/
def Obligations.DrwXorsTheSprite : Prop :=
  ∀ (x y : Reg) (n : Nibble) (s : State), decodeWord (0xD#4 ++ x ++ y ++ n) = some (.drw x y n) ∧
    (n = 0 ∨ dataAddress s + n.toNat - 1 ≤ 0xFFF → ∃ t, exec (.drw x y n) s = .next t ∧
      (∀ py px, t.display.pixel py px = (s.display.pixel py px ^^
        spriteLights (s.mem.readBytes (dataAddress s) n.toNat) (s.reg x).toNat (s.reg y).toNat py px)) ∧
      (t.reg vf = 0 ∨ t.reg vf = 1) ∧
      (t.reg vf = 1 ↔ ∃ py px, s.display.pixel py px = true ∧
        spriteLights (s.mem.readBytes (dataAddress s) n.toNat) (s.reg x).toNat (s.reg y).toNat py px = true) ∧
      (∀ r, r ≠ vf → t.reg r = s.reg r) ∧ t.pc = s.pc + 2 ∧ Frame [.display, .registers] s t)

/-- R203 (a): the same sprite drawn twice at the same place restores the display; for DRW, where neither coordinate is
in VF, which the first draw overwrites. -/
def Obligations.DrawingTwiceRestoresTheDisplay : Prop :=
  (∀ (x0 y0 : Nat) (bytes : List Byte) (d : Display), bytes.length ≤ 15 →
    (drawSprite x0 y0 bytes (drawSprite x0 y0 bytes d).1).1 = d) ∧
  (∀ (x y : Reg) (n : Nibble) (s t u : State), x ≠ vf → y ≠ vf → exec (.drw x y n) s = .next t →
    exec (.drw x y n) t = .next u → u.display = s.display)

/-! ## Keypad and timers (43_keypad_timers) -/

/-- R220 to R222. SKP and SKNP with a key number, and KeyIndexOutOfRange above 15 (the latch is decision D12, log 2). -/
def Obligations.KeySkips : Prop :=
  ∀ (x : Reg) (s : State) (k : Nat), (s.reg x).toNat = k →
    decodeWord (0xE#4 ++ x ++ 0x9E#8) = some (.skp x) ∧ decodeWord (0xE#4 ++ x ++ 0xA1#8) = some (.sknp x) ∧
    (k ≤ 15 →
      (∃ t, exec (.skp x) s = .next t ∧ t.pc = (if s.key.getLsbD k then s.pc + 4 else s.pc + 2) ∧ Frame [] s t) ∧
      (∃ t, exec (.sknp x) s = .next t ∧ t.pc = (if s.key.getLsbD k then s.pc + 2 else s.pc + 4) ∧ Frame [] s t)) ∧
    (15 < k →
      exec (.skp x) s = .next (faulted .keyIndexOutOfRange (0xE#4 ++ x ++ 0x9E#8) s) ∧
      exec (.sknp x) s = .next (faulted .keyIndexOutOfRange (0xE#4 ++ x ++ 0xA1#8) s))

/-- R223. KEY: the lowest just_pressed key, which stays latched (the spec's decision D24), or the same instruction
again. -/
def Obligations.KeyWaitsForAPress : Prop :=
  ∀ (x : Reg) (s : State), decodeWord (0xF#4 ++ x ++ 0x0A#8) = some (.key x) ∧
    (∀ k < 16, s.just.getLsbD k = true → (∀ j < k, s.just.getLsbD j = false) →
      ∃ t, exec (.key x) s = .next t ∧ (∀ r, t.reg r = if r = x then BitVec.ofNat 8 k else s.reg r) ∧
        t.pc = s.pc + 2 ∧ Frame [.registers] s t) ∧
    ((∀ k < 16, s.just.getLsbD k = false) → exec (.key x) s = .next (s.setIter (s.iter + 1)))

/-- R224 to R226. GDT, SDT and SST (which code touches which timer is the spec's GK11). -/
def Obligations.TimerTransfers : Prop :=
  ∀ (x : Reg) (s : State),
    (decodeWord (0xF#4 ++ x ++ 0x07#8) = some (.gdt x) ∧ ∃ t, exec (.gdt x) s = .next t ∧
      (∀ r, t.reg r = if r = x then s.dt else s.reg r) ∧ t.pc = s.pc + 2 ∧ Frame [.registers] s t) ∧
    (decodeWord (0xF#4 ++ x ++ 0x15#8) = some (.sdt x) ∧ ∃ t, exec (.sdt x) s = .next t ∧
      t.dt = s.reg x ∧ t.pc = s.pc + 2 ∧ Frame [.delayTimer] s t) ∧
    (decodeWord (0xF#4 ++ x ++ 0x18#8) = some (.sst x) ∧ ∃ t, exec (.sst x) s = .next t ∧
      t.st = s.reg x ∧ beep t = decide (s.reg x ≠ 0) ∧ t.pc = s.pc + 2 ∧ Frame [.soundTimer] s t)

/-! ## Index register and memory (44_index_memory) -/

/-- R240. LDA, which the spec supplies (its decision D3). -/
def Obligations.LdaLoadsTheAddress : Prop :=
  ∀ (nnn : Addr) (s : State), decodeWord (0xA#4 ++ nnn) = some (.lda nnn) ∧
    ∃ t, exec (.lda nnn) s = .next t ∧ t.i.toNat = nnn.toNat ∧ t.pc = s.pc + 2 ∧ Frame [.index] s t

/-- R241. ADX: the masked sum, and VF by the policy (the overflow test on the full sum is the spec's decision D18). -/
def Obligations.AdxMasksToTwelveBits : Prop :=
  ∀ (x : Reg) (s : State), decodeWord (0xF#4 ++ x ++ 0x1E#8) = some (.adx x) ∧
    ∃ t, exec (.adx x) s = .next t ∧ t.i.toNat = (s.i.toNat + (s.reg x).toNat) % 4096 ∧
      t.reg vf = (if s.cfg.indexOverflowFlag then (if 0xFFF < s.i.toNat + (s.reg x).toNat then 1 else 0)
        else if s.cfg.indexVfFlush then 0 else s.reg vf) ∧
      (∀ r, r ≠ vf → t.reg r = s.reg r) ∧ t.pc = s.pc + 2 ∧ Frame [.index, .registers] s t

/-- R243. FNT of a hexadecimal digit. -/
def Obligations.FntPointsAtAGlyph : Prop :=
  ∀ (x : Reg) (s : State), decodeWord (0xF#4 ++ x ++ 0x29#8) = some (.fnt x) ∧
    ((s.reg x).toNat ≤ 15 → ∃ t, exec (.fnt x) s = .next t ∧
      t.i.toNat = s.cfg.fontOrigin.toNat + 5 * (s.reg x).toNat ∧ t.pc = s.pc + 2 ∧ Frame [.index] s t)

/-- R243, U3. FNT above 15 is refused by name: "UNSPECIFIED ... a model refuses" (the spec's decision D16; log 10). -/
def Obligations.FntAbove15IsRefused : Prop :=
  ∀ (x : Reg) (s : State), 15 < (s.reg x).toNat → exec (.fnt x) s = .refused (.fontDigitUnspecified (s.reg x))

/-- R244. BCD in bounds: hundreds, tens and ones (the order is the spec's GK8); no other byte changes. -/
def Obligations.BcdStoresThreeDigits : Prop :=
  ∀ (x : Reg) (s : State), decodeWord (0xF#4 ++ x ++ 0x33#8) = some (.bcd x) ∧
    (dataAddress s + 2 ≤ 0xFFF → ∃ t, exec (.bcd x) s = .next t ∧
      (t.mem.read (dataAddress s)).toNat = (s.reg x).toNat / 100 ∧
      (t.mem.read (dataAddress s + 1)).toNat = (s.reg x).toNat / 10 % 10 ∧
      (t.mem.read (dataAddress s + 2)).toNat = (s.reg x).toNat % 10 ∧
      (∀ a, a < dataAddress s ∨ dataAddress s + 2 < a → t.mem.read a = s.mem.read a) ∧
      t.pc = s.pc + 2 ∧ Frame [.memory] s t)

/-- R245, R247. STM in bounds: V0 to VX rising; no other byte changes; `I` moves under the quirk alone (range and
formula are the spec's GK9, GK10, D19). -/
def Obligations.StmStoresTheRange : Prop :=
  ∀ (x : Reg) (s : State), decodeWord (0xF#4 ++ x ++ 0x55#8) = some (.stm x) ∧
    (dataAddress s + x.toNat ≤ 0xFFF → ∃ t, exec (.stm x) s = .next t ∧
      (∀ j : Reg, j.toNat ≤ x.toNat → t.mem.read (dataAddress s + j.toNat) = s.reg j) ∧
      (∀ a, a < dataAddress s ∨ dataAddress s + x.toNat < a → t.mem.read a = s.mem.read a) ∧
      t.i.toNat = (if s.cfg.dumpIncrementsI then s.i.toNat + x.toNat + 1 else s.i.toNat) ∧
      t.pc = s.pc + 2 ∧ Frame [.memory, .index] s t)

/-- R246, R247. LDM in bounds: V0 to VX rising; registers above VX keep their values; `I` moves under the quirk alone
(range and formula are the spec's GK9, GK10, D19). -/
def Obligations.LdmLoadsTheRange : Prop :=
  ∀ (x : Reg) (s : State), decodeWord (0xF#4 ++ x ++ 0x65#8) = some (.ldm x) ∧
    (dataAddress s + x.toNat ≤ 0xFFF → ∃ t, exec (.ldm x) s = .next t ∧
      (∀ r : Reg, t.reg r = if r.toNat ≤ x.toNat then s.mem.read (dataAddress s + r.toNat) else s.reg r) ∧
      t.i.toNat = (if s.cfg.dumpIncrementsI then s.i.toNat + x.toNat + 1 else s.i.toNat) ∧
      t.pc = s.pc + 2 ∧ Frame [.registers, .index] s t)

/-- 20_memory R66, 60_exceptions R275: an access whose last byte lies above 0xFFF faults before anything is written; a
DRW of no rows never does (decisions D12, D13, D23; log 2). -/
def Obligations.OutOfBoundsAccessFaults : Prop :=
  ∀ (x y : Reg) (n : Nibble) (s : State),
    (n ≠ 0 → 0xFFF < dataAddress s + n.toNat - 1 →
      exec (.drw x y n) s = .next (faulted .memoryOutOfBounds (0xD#4 ++ x ++ y ++ n) s)) ∧
    (0xFFF < dataAddress s + 2 →
      exec (.bcd x) s = .next (faulted .memoryOutOfBounds (0xF#4 ++ x ++ 0x33#8) s)) ∧
    (0xFFF < dataAddress s + x.toNat →
      exec (.stm x) s = .next (faulted .memoryOutOfBounds (0xF#4 ++ x ++ 0x55#8) s) ∧
      exec (.ldm x) s = .next (faulted .memoryOutOfBounds (0xF#4 ++ x ++ 0x65#8) s))

/-- 20_memory R74: two registers stored over the word at `pc` of the next cycle are what that cycle fetches (the spec's
decision D20). -/
def Obligations.StoredCodeIsFetched : Prop :=
  ∀ (x j k : Reg) (s t : State), exec (.stm x) s = .next t →
    dataAddress s + x.toNat ≤ 0xFFF → k.toNat = j.toNat + 1 → k.toNat ≤ x.toNat →
    t.pc.toNat = dataAddress s + j.toNat → t.fetchWord = s.reg j ++ s.reg k

/-! ## Timers, the host and reset -/

/-- 60_exceptions R284: `k` ticks lower both timers by `k`, not below 0, and change nothing else; `j + k` ticks are `j`
and then `k`. A halted engine does not tick (the spec's decision D12). 60_exceptions R287: the sound signal is on
exactly while ST exceeds 0. -/
def Obligations.TicksCountDownToZero : Prop :=
  (∀ (k : Nat) (s : State), s.fault = none →
    (tick k s).dt.toNat = s.dt.toNat - k ∧ (tick k s).st.toNat = s.st.toNat - k ∧
    ((tick k s).setDt s.dt).setSt s.st = s) ∧
  (∀ (j k : Nat) (s : State), tick (j + k) s = tick k (tick j s)) ∧
  (∀ s : State, beep s = true ↔ 0 < s.st.toNat)

/-- 40_cycle_control R132: a call ticks at once, then its `n` cycles run and no more; if none faults the counter has
grown by exactly `n` (the agenda is log 1). -/
def Obligations.CallTicksThenRunsItsCycles : Prop :=
  (∀ (s : State) (k n : Nat) (rest : List HostMove), s.fault = none → s.agenda = .call k n :: rest →
    step s = .next ((tick k s).setAgenda (List.replicate n .cycle ++ rest))) ∧
  (∀ (s t : State) (k n : Nat) (rest : List HostMove), s.fault = none → s.agenda = .call k n :: rest →
    Host.Core.run Sys2Proof.core (n + 1) s = .next t →
    t.agenda = rest ∧ (t.fault = none → t.iter = s.iter + n))

/-- 10_state R36, R37: an input poll writes the levels, latches exactly the keys that went down since the last one and
uses up its move (the presses the levels do not show are the host's to say, log 15; the first poll after a reset
compares with the levels 0 of the reset, log 16; the moves are log 1). -/
def Obligations.PollLatchesTheEdges : Prop :=
  ∀ (s : State) (levels presses : BitVec 16) (rest : List HostMove), s.agenda = .poll levels presses :: rest →
    ∃ t, step s = .next t ∧ t.key = levels ∧
      (∀ k < 16, t.just.getLsbD k = ((levels.getLsbD k && !s.key.getLsbD k) || presses.getLsbD k)) ∧
      t.agenda = rest ∧ ((t.setKey s.key).setJust s.just).setAgenda s.agenda = s

/-- 10_state R40, 70_reset R311, 20_memory R71, 00_scope R4: the state after the default reset, the bytes of the font
written out, and the default of every parameter (the zeros and the font bytes are the spec's decisions D14, D15; log 4,
log 5). -/
def Obligations.ResetState : Prop :=
  State.reset.pc = 0x200 ∧ State.reset.sp = -1 ∧ State.reset.fault = none ∧ State.reset.iter = 0 ∧
  State.reset.i = 0 ∧ State.reset.dt = 0 ∧ State.reset.st = 0 ∧ State.reset.key = 0 ∧ State.reset.just = 0 ∧
  (∀ r, State.reset.reg r = 0) ∧ (∀ k : Fin 16, State.reset.stack[k] = 0) ∧
  (∀ y x, State.reset.display.pixel y x = false) ∧
  (∀ a, State.reset.mem.read a =
    if 0x050 ≤ a ∧ a < 0x0A0 then fontByte State.reset.cfg.fontData (a - 0x050) else 0) ∧
  State.reset.mem.readBytes 0x050 80 =
    [0xF0, 0x90, 0x90, 0x90, 0xF0] ++ [0x20, 0x60, 0x20, 0x20, 0x70] ++ [0xF0, 0x10, 0xF0, 0x80, 0xF0] ++
    [0xF0, 0x10, 0xF0, 0x10, 0xF0] ++ [0x90, 0x90, 0xF0, 0x10, 0x10] ++ [0xF0, 0x80, 0xF0, 0x10, 0xF0] ++
    [0xF0, 0x80, 0xF0, 0x90, 0xF0] ++ [0xF0, 0x10, 0x20, 0x40, 0x40] ++ [0xF0, 0x90, 0xF0, 0x90, 0xF0] ++
    [0xF0, 0x90, 0xF0, 0x10, 0xF0] ++ [0xF0, 0x90, 0xF0, 0x90, 0x90] ++ [0xE0, 0x90, 0xE0, 0x90, 0xE0] ++
    [0xF0, 0x80, 0x80, 0x80, 0xF0] ++ [0xE0, 0x90, 0x90, 0x90, 0xE0] ++ [0xF0, 0x80, 0xF0, 0x80, 0xF0] ++
    [0xF0, 0x80, 0xF0, 0x80, 0x80] ∧
  State.reset.cfg.programOrigin = 0x200 ∧ State.reset.cfg.fontOrigin = 0x050 ∧ State.reset.cfg.fontData = defaultFont ∧
  State.reset.cfg.shiftUsesVy = false ∧ State.reset.cfg.indexOverflowFlag = false ∧
  State.reset.cfg.indexVfFlush = false ∧ State.reset.cfg.dumpIncrementsI = false ∧ State.reset.cfg.Legal

/-- 70_reset R310 to R313, 44_index_memory R242: a host reset with legal inputs, from any state, leaves every component
at its reset value and latches the inputs; with illegal ones it is refused. The zeros are the spec's decision D14
(log 4); the refusal of both quirks is its decision D17 (log 6); that of a font past 0xFFF is the model's answer to
20_memory R70 (log 9); that the later moves and the draw count are kept is the model's choice (log 1, log 3). -/
def Obligations.HostResetLatchesAndClears : Prop :=
  ∀ (s : State) (p : ResetInputs) (rest : List HostMove), s.agenda = .reset p :: rest →
    (p.fontOrigin.toNat + 79 ≤ 0xFFF → ¬ (p.quirkIndexOverflowFlag = true ∧ p.quirkIndexVfFlush = true) →
      ∃ t, step s = .next t ∧ t.pc.toNat = p.programOrigin.toNat ∧ t.sp = -1 ∧ t.fault = none ∧ t.iter = 0 ∧
        t.i = 0 ∧ t.dt = 0 ∧ t.st = 0 ∧ t.key = 0 ∧ t.just = 0 ∧ (∀ r, t.reg r = 0) ∧
        (∀ k : Fin 16, t.stack[k] = 0) ∧ (∀ y x, t.display.pixel y x = false) ∧
        (∀ a, t.mem.read a = if p.fontOrigin.toNat ≤ a ∧ a < p.fontOrigin.toNat + 80
          then fontByte p.fontData (a - p.fontOrigin.toNat) else 0) ∧
        t.cfg.shiftUsesVy = p.quirkShiftUsesVy ∧ t.cfg.indexOverflowFlag = p.quirkIndexOverflowFlag ∧
        t.cfg.indexVfFlush = p.quirkIndexVfFlush ∧ t.cfg.dumpIncrementsI = p.quirkDumpIncrementsI ∧
        t.cfg.programOrigin = p.programOrigin ∧ t.cfg.fontOrigin = p.fontOrigin ∧ t.cfg.fontData = p.fontData ∧
        t.agenda = rest ∧ t.draws = s.draws) ∧
    (0xFFF < p.fontOrigin.toNat + 79 ∨ (p.quirkIndexOverflowFlag = true ∧ p.quirkIndexVfFlush = true) →
      step s = .refused .illegalConfiguration)

/-- 70_reset R314 and 20_memory R75: a program load places the image verbatim from PROGRAM_ORIGIN on and changes
nothing else, a malformed image is refused (the size limits are the spec's decision D27; log 11), and a host write
changes one byte; each uses up its move (log 1). -/
def Obligations.HostLoadsAndWrites : Prop :=
  (∀ (s : State) (image : List Byte) (rest : List HostMove), s.agenda = .load image :: rest →
    (image.length % 2 = 0 → image.length ≤ 4096 - s.cfg.programOrigin.toNat →
      ∃ t, step s = .next t ∧
        (∀ j (h : j < image.length), t.mem.read (s.cfg.programOrigin.toNat + j) = image[j]) ∧
        (∀ a, a < s.cfg.programOrigin.toNat ∨ s.cfg.programOrigin.toNat + image.length ≤ a →
          t.mem.read a = s.mem.read a) ∧
        t.agenda = rest ∧ (t.setMem s.mem).setAgenda s.agenda = s) ∧
    (image.length % 2 = 1 ∨ 4096 - s.cfg.programOrigin.toNat < image.length →
      step s = .refused (.malformedImage image.length))) ∧
  (∀ (s : State) (address : Addr) (v : Byte) (rest : List HostMove), s.agenda = .write address v :: rest →
    ∃ t, step s = .next t ∧ (∀ a, t.mem.read a = if a = address.toNat then v else s.mem.read a) ∧
      t.agenda = rest ∧ (t.setMem s.mem).setAgenda s.agenda = s)

/-! ## Invariants -/

/-- The state after reset meets the invariant, whatever moves the host is to make. -/
def Obligations.ResetMeetsTheInvariant : Prop :=
  ∀ moves : List HostMove, (State.reset.setAgenda moves).Inv

/-- Every step, of the engine or of the host, keeps the invariant: memory canonical and inside the address space, the
bounds of `I`, `pc` and the return addresses, the font inside memory. -/
def Obligations.StepKeepsTheInvariant : Prop :=
  ∀ s t : State, s.Inv → step s = .next t → t.Inv

/-- 10_state R42, (a) to (f), which the spec marks as its own inference, in every state reachable from reset under any
moves of the host. -/
def Obligations.ReachableStatesAreBounded : Prop :=
  ∀ s : State, Reachable s → s.fault = none →
    (∀ y x, s.display.pixel y x = false ∨ s.display.pixel y x = true) ∧
    (-1 ≤ s.sp ∧ s.sp ≤ 15) ∧ s.i.toNat ≤ 0x1000 ∧ s.pc.toNat ≤ 0x10FE ∧
    (s.dt.toNat ≤ 255 ∧ s.st.toNat ≤ 255 ∧ ∀ r, (s.reg r).toNat ≤ 255) ∧
    ¬ (s.cfg.indexOverflowFlag = true ∧ s.cfg.indexVfFlush = true)
end

