-- ==== Sys2Proof/Laws/Screen.lean ====
section
/-! SUPPORT. The laws of the framebuffer: a flip changes one pixel, and what one row of a sprite does to every pixel. -/

namespace Sys2Proof.Machine

/-- Displays with the same pixels are the same display. -/
theorem Display.ext_pixel {d e : Display} (h : ∀ y x, d.pixel y x = e.pixel y x) : d = e := by
  apply Vector.ext
  intro y hy
  apply BitVec.eq_of_getLsbD_eq
  intro x hx
  exact h ⟨y, hy⟩ ⟨x, hx⟩

/-- A flip inverts its pixel and leaves the others alone. -/
@[simp] theorem Display.pixel_flip (d : Display) (y : Fin 32) (x : Fin 64) (y' : Fin 32) (x' : Fin 64) :
    (d.flip y x).pixel y' x' = if y' = y ∧ x' = x then !d.pixel y x else d.pixel y' x' := by
  unfold Display.flip Display.pixel
  have hx := x'.isLt
  by_cases hy : y' = y
  · subst hy
    by_cases hx' : x' = x
    · subst hx'; simp [hx]
    · have hne : ¬ (x'.val = x.val) := fun h => hx' (Fin.ext h)
      have h2 : (!decide (x' < x) && decide (x'.val - x.val = 0)) = false := by
        simp only [Bool.and_eq_false_imp, Bool.not_eq_true', decide_eq_false_iff_not, Fin.lt_def]
        omega
      simp [hx', h2]
  · have : y.val ≠ y'.val := fun h => hy (Fin.ext h.symm)
    simp [hy, this]

/-- Every pixel of the blank display is 0. -/
@[simp] theorem Display.pixel_blank (y : Fin 32) (x : Fin 64) : Display.blank.pixel y x = false := by
  simp [Display.blank, Display.pixel]

end Sys2Proof.Machine
end

