-- ==== Sys2Proof/Laws/Drawing.lean ====
section
/-! SUPPORT. What drawing a sprite does to every pixel, and when it collides (42_display R202). -/

namespace Sys2Proof.Machine

/-- The column a bit of the walk is plotted at, seen from the pixel. -/
theorem eq_wrapCol_iff (x0 k : Nat) (hk : k < 8) (x : Fin 64) : x = wrapCol (x0 + k) ↔ columnOffset x0 x = k := by
  have := x.isLt
  rw [Fin.ext_iff]
  simp only [wrapCol, columnOffset]
  omega

/-- The row of a sprite row, seen from the pixel. -/
theorem eq_wrapRow_iff (y0 row : Nat) (hr : row < 32) (y : Fin 32) : y = wrapRow (y0 + row) ↔ rowOffset y0 y = row := by
  have := y.isLt
  rw [Fin.ext_iff]
  simp only [wrapRow, rowOffset]
  omega

/-- A column offset is reached by its column. -/
theorem columnOffset_wrapCol (x0 k : Nat) (hk : k < 64) : columnOffset x0 (wrapCol (x0 + k)) = k := by
  simp only [wrapCol, columnOffset]
  omega

/-- The first `n` bits of a sprite row: every pixel, and the collision. -/
theorem drawBits_spec (b : Byte) (x0 : Nat) (y : Fin 32) (d : Display) (c : Bool) (n : Nat) (hn : n ≤ 8) :
    let r := (List.range n).foldl
      (fun acc k => if b.getLsbD (7 - k) then plot y (wrapCol (x0 + k)) acc else acc) (d, c)
    (∀ y' x', r.1.pixel y' x' =
      (d.pixel y' x' ^^ (decide (y' = y) && (decide (columnOffset x0 x' < n) && b.getLsbD (7 - columnOffset x0 x'))))) ∧
    (r.2 = true ↔ c = true ∨ ∃ x, columnOffset x0 x < n ∧ b.getLsbD (7 - columnOffset x0 x) = true ∧ d.pixel y x = true) := by
  induction n with
  | zero => simp
  | succ n ih =>
    obtain ⟨ih1, ih2⟩ := ih (by omega)
    simp only [List.range_succ, List.foldl_append, List.foldl_cons, List.foldl_nil]
    set r := (List.range n).foldl
      (fun acc k => if b.getLsbD (7 - k) then plot y (wrapCol (x0 + k)) acc else acc) (d, c) with hr
    have hcol : columnOffset x0 (wrapCol (x0 + n)) = n := columnOffset_wrapCol x0 n (by omega)
    by_cases hb : b.getLsbD (7 - n) = true
    · simp only [hb, if_true, plot]
      refine ⟨fun y' x' => ?_, ?_⟩
      · rw [Display.pixel_flip]
        by_cases hy : y' = y
        · by_cases hx : x' = wrapCol (x0 + n)
          · subst hx; subst hy; simp [ih1, hcol, hb]
          · have hx' : columnOffset x0 x' ≠ n := fun h => hx ((eq_wrapCol_iff x0 n (by omega) x').mpr h)
            have : (columnOffset x0 x' < n + 1) = (columnOffset x0 x' < n) := by
              apply propext; omega
            simp [hy, hx, ih1, this]
        · simp [hy, ih1]
      · rw [Bool.or_eq_true, ih2, ih1]
        simp only [hcol, lt_irrefl, decide_false, Bool.false_and, Bool.and_false, Bool.xor_false]
        constructor
        · rintro ((h | ⟨x, h1, h2⟩) | h)
          · exact .inl h
          · exact .inr ⟨x, by omega, h2⟩
          · exact .inr ⟨wrapCol (x0 + n), by omega, by rw [hcol]; exact ⟨hb, h⟩⟩
        · rintro (h | ⟨x, h1, h2, h3⟩)
          · exact .inl (.inl h)
          · by_cases hx : columnOffset x0 x = n
            · rw [← (eq_wrapCol_iff x0 n (by omega) x).mpr hx]; exact .inr h3
            · exact .inl (.inr ⟨x, by omega, h2, h3⟩)
    · have hb' : b.getLsbD (7 - n) = false := by simpa using hb
      simp only [hb', Bool.false_eq_true, if_false]
      have key : ∀ x, (columnOffset x0 x < n + 1 ∧ b.getLsbD (7 - columnOffset x0 x) = true) ↔
          (columnOffset x0 x < n ∧ b.getLsbD (7 - columnOffset x0 x) = true) := by
        intro x
        by_cases hx : columnOffset x0 x = n
        · simp [hx, hb']
        · constructor <;> rintro ⟨h1, h2⟩ <;> exact ⟨by omega, h2⟩
      refine ⟨fun y' x' => ?_, ?_⟩
      · rw [ih1]
        congr 2
        rw [Bool.eq_iff_iff]
        simpa using (key x').symm
      · rw [ih2]
        constructor
        · rintro (h | ⟨x, h1, h2, h3⟩)
          · exact .inl h
          · exact .inr ⟨x, by omega, h2, h3⟩
        · rintro (h | ⟨x, h1, h2, h3⟩)
          · exact .inl h
          · exact .inr ⟨x, ((key x).mp ⟨h1, h2⟩).1, h2, h3⟩

/-- One sprite row: a pixel of its row is XORed with the byte's bit there, every other pixel is left alone. -/
theorem drawRow_pixel (b : Byte) (x0 : Nat) (y : Fin 32) (acc : Display × Bool) (y' : Fin 32) (x' : Fin 64) :
    (drawRow b x0 y acc).1.pixel y' x' = (acc.1.pixel y' x' ^^ (decide (y' = y) && byteLights b x0 x')) :=
  (drawBits_spec b x0 y acc.1 acc.2 8 (by omega)).1 y' x'

/-- One sprite row collides where one of its set bits meets a set pixel. -/
theorem drawRow_collision (b : Byte) (x0 : Nat) (y : Fin 32) (acc : Display × Bool) :
    (drawRow b x0 y acc).2 = true ↔ acc.2 = true ∨ ∃ x, byteLights b x0 x = true ∧ acc.1.pixel y x = true := by
  rw [drawRow, (drawBits_spec b x0 y acc.1 acc.2 8 (by omega)).2]
  simp [byteLights, and_assoc]

/-- The rows from `row` on: every pixel, and the collision. -/
theorem drawRows_spec (x0 y0 row : Nat) (bytes : List Byte) (acc : Display × Bool) (h : row + bytes.length ≤ 32) :
    (∀ y x, (drawRows x0 y0 row bytes acc).1.pixel y x =
      (acc.1.pixel y x ^^ (decide (row ≤ rowOffset y0 y) &&
        ((bytes[rowOffset y0 y - row]?).elim false (fun b => byteLights b x0 x))))) ∧
    ((drawRows x0 y0 row bytes acc).2 = true ↔ acc.2 = true ∨ ∃ y x, row ≤ rowOffset y0 y ∧
        (bytes[rowOffset y0 y - row]?).elim false (fun b => byteLights b x0 x) = true ∧ acc.1.pixel y x = true) := by
  induction bytes generalizing row acc with
  | nil => simp [drawRows]
  | cons b rest ih =>
    simp only [List.length_cons] at h
    obtain ⟨ih1, ih2⟩ := ih (row + 1) (drawRow b x0 (wrapRow (y0 + row)) acc) (by omega)
    simp only [drawRows]
    have step : ∀ y x, (decide (row ≤ rowOffset y0 y) &&
        (((b :: rest)[rowOffset y0 y - row]?).elim false (fun b => byteLights b x0 x))) =
        ((decide (y = wrapRow (y0 + row)) && byteLights b x0 x) ^^ (decide (row + 1 ≤ rowOffset y0 y) &&
        ((rest[rowOffset y0 y - (row + 1)]?).elim false (fun b => byteLights b x0 x)))) := by
      intro y x
      have hy := eq_wrapRow_iff y0 row (by omega) y
      by_cases h1 : rowOffset y0 y = row
      · rw [show decide (y = wrapRow (y0 + row)) = true from decide_eq_true (hy.mpr h1), h1]
        simp
      · have hy' : y ≠ wrapRow (y0 + row) := fun e => h1 (hy.mp e)
        by_cases h2 : row ≤ rowOffset y0 y
        · have e : rowOffset y0 y - row = (rowOffset y0 y - (row + 1)) + 1 := by omega
          simp [hy', h2, e, show row + 1 ≤ rowOffset y0 y by omega]
        · simp [hy', h2, show ¬ row + 1 ≤ rowOffset y0 y by omega]
    refine ⟨fun y x => ?_, ?_⟩
    · rw [ih1, drawRow_pixel, step, Bool.xor_assoc]
    · rw [ih2, drawRow_collision]
      constructor
      · rintro ((h0 | ⟨x, h1, h2⟩) | ⟨y, x, h1, h2, h3⟩)
        · exact .inl h0
        · refine .inr ⟨wrapRow (y0 + row), x, ?_⟩
          have e := (eq_wrapRow_iff y0 row (by omega) (wrapRow (y0 + row))).mp rfl
          simp [e, h1, h2]
        · have hy' : y ≠ wrapRow (y0 + row) := fun e => by
            have := (eq_wrapRow_iff y0 row (by omega) y).mp e; omega
          rw [drawRow_pixel] at h3
          have e : rowOffset y0 y - row = (rowOffset y0 y - (row + 1)) + 1 := by omega
          refine .inr ⟨y, x, by omega, ?_, by simpa [hy'] using h3⟩
          rw [e, List.getElem?_cons_succ]; exact h2
      · rintro (h0 | ⟨y, x, h1, h2, h3⟩)
        · exact .inl (.inl h0)
        · by_cases e0 : rowOffset y0 y = row
          · have hy := (eq_wrapRow_iff y0 row (by omega) y).mpr e0
            rw [← hy]
            refine .inl (.inr ⟨x, ?_, h3⟩)
            simpa [e0] using h2
          · have hy' : y ≠ wrapRow (y0 + row) := fun e => e0 ((eq_wrapRow_iff y0 row (by omega) y).mp e)
            have e : rowOffset y0 y - row = (rowOffset y0 y - (row + 1)) + 1 := by omega
            rw [e, List.getElem?_cons_succ] at h2
            refine .inr ⟨y, x, by omega, h2, ?_⟩
            rw [drawRow_pixel]; simpa [hy'] using h3

/-- Drawing a sprite of at most 15 bytes XORs every pixel with whether the sprite lights it. -/
theorem drawSprite_pixel (x0 y0 : Nat) (bytes : List Byte) (d : Display) (h : bytes.length ≤ 15) (y : Fin 32) (x : Fin 64) :
    (drawSprite x0 y0 bytes d).1.pixel y x = (d.pixel y x ^^ spriteLights bytes x0 y0 y x) := by
  rw [drawSprite, (drawRows_spec x0 y0 0 bytes (d, false) (by omega)).1]
  simp only [Nat.zero_le, decide_true, Bool.true_and, Nat.sub_zero, spriteLights]
  cases bytes[rowOffset y0 y]? <;> rfl

/-- A sprite of at most 15 bytes collides exactly where it lights a set pixel. -/
theorem drawSprite_collision (x0 y0 : Nat) (bytes : List Byte) (d : Display) (h : bytes.length ≤ 15) :
    (drawSprite x0 y0 bytes d).2 = true ↔ ∃ y x, spriteLights bytes x0 y0 y x = true ∧ d.pixel y x = true := by
  rw [drawSprite, (drawRows_spec x0 y0 0 bytes (d, false) (by omega)).2]
  simp only [Bool.false_eq_true, false_or, Nat.zero_le, true_and, Nat.sub_zero, spriteLights]
  constructor <;> rintro ⟨y, x, h1, h2⟩ <;> refine ⟨y, x, ?_, h2⟩ <;> cases hb : bytes[rowOffset y0 y]? <;> simp_all

end Sys2Proof.Machine
end

