-- ==== Sys2Proof/Laws/Memory.lean ====
section
/-! SUPPORT. The laws of memory: what reads back after a write, that a write leaves every other byte alone, and that
every operation keeps the canonical form. -/

namespace Sys2Proof.Machine

/-! ## One byte -/

/-- What a byte reads as after a cell is put in. -/
theorem Memory.read_insert (m : Memory) (a : Nat) (b : Byte) (a' : Nat) :
    (Memory.insert a b m).read a' = if a' = a then b else m.read a' := by
  induction m with
  | nil => rfl
  | cons c rest ih => grind [Memory.insert, Memory.read]

/-- What a byte reads as after the cells of an address are taken out. -/
theorem Memory.read_filter (m : Memory) (a : Nat) (a' : Nat) :
    Memory.read (m.filter (fun c => c.1 ≠ a)) a' = if a' = a then Memory.background a else m.read a' := by
  induction m with
  | nil => grind [Memory.read]
  | cons c rest ih => grind [Memory.read]

/-- What a byte reads as after a write of one byte. -/
@[simp] theorem Memory.read_write (m : Memory) (a : Nat) (b : Byte) (a' : Nat) :
    (m.write a b).read a' = if a' = a then b else m.read a' := by
  unfold Memory.write
  split
  · rename_i h; rw [Memory.read_filter, h]
  · exact Memory.read_insert m a b a'

/-- A cell of memory with a cell put in is that cell or an old one. -/
theorem Memory.mem_insert {a : Nat} {b : Byte} {m : Memory} {c : Host.Cell} (h : c ∈ Memory.insert a b m) :
    c = (a, b) ∨ c ∈ m := by
  induction m with
  | nil => simpa [Memory.insert] using h
  | cons d rest ih => grind [Memory.insert]

/-- Putting in a cell of an address in range whose byte differs from the background keeps the canonical form. -/
theorem Memory.insert_wf {m : Memory} {a : Nat} {b : Byte} (hm : m.wf) (ha : a < memSize)
    (hb : b ≠ Memory.background a) : (Memory.insert a b m).wf := by
  refine ⟨?_, fun c hc => ?_⟩
  · have hp := hm.1
    clear hm
    induction m with
    | nil => simp [Memory.insert]
    | cons d rest ih =>
      obtain ⟨hd, hp⟩ := List.pairwise_cons.mp hp
      unfold Memory.insert
      split
      · refine List.pairwise_cons.mpr ⟨fun c hc => ?_, List.pairwise_cons.mpr ⟨hd, hp⟩⟩
        rcases List.mem_cons.mp hc with rfl | hc
        · assumption
        · have := hd c hc; omega
      · split
        · exact List.pairwise_cons.mpr ⟨fun c hc => by have := hd c hc; simp_all, hp⟩
        · refine List.pairwise_cons.mpr ⟨fun c hc => ?_, ih hp⟩
          rcases Memory.mem_insert hc with rfl | hc
          · show d.1 < a; omega
          · exact hd c hc
  · rcases Memory.mem_insert hc with rfl | hc
    · exact ⟨ha, hb⟩
    · exact hm.2 c hc

/-- A write of one byte of the address space keeps the canonical form. -/
theorem Memory.write_wf {m : Memory} {a : Nat} {b : Byte} (hm : m.wf) (ha : a < memSize) : (m.write a b).wf := by
  unfold Memory.write
  split
  · exact ⟨hm.1.filter _, fun c hc => hm.2 c (List.mem_filter.mp hc).1⟩
  · exact Memory.insert_wf hm ha ‹_›

/-- Memory that lists nothing is canonical. -/
theorem Memory.nil_wf : Memory.wf [] := by decide

/-! ## Several bytes -/

/-- What a byte reads as after a write of several: the byte written there, or what it was. -/
theorem Memory.read_writeBytes (m : Memory) (base : Nat) (bs : List Byte) (a : Nat) :
    (m.writeBytes base bs).read a = if h : base ≤ a ∧ a - base < bs.length then bs[a - base]'h.2 else m.read a := by
  induction bs generalizing m base with
  | nil => simp [Memory.writeBytes]
  | cons b rest ih =>
    rw [Memory.writeBytes, ih, Memory.read_write]
    by_cases h0 : a = base
    · subst h0; simp
    · by_cases h1 : base ≤ a
      · obtain ⟨k, rfl⟩ : ∃ k, a = base + 1 + k := ⟨a - base - 1, by omega⟩
        have e : base + 1 + k - base = k + 1 := by omega
        simp [e, show base ≤ base + 1 + k by omega, show base + 1 + k ≠ base by omega]
      · simp [h0, h1, show ¬ base + 1 ≤ a by omega]

/-- Bytes outside those written are left alone. -/
theorem Memory.read_writeBytes_outside (m : Memory) (base : Nat) (bs : List Byte) (a : Nat)
    (h : a < base ∨ base + bs.length ≤ a) : (m.writeBytes base bs).read a = m.read a := by
  rw [Memory.read_writeBytes, dif_neg (by omega)]

/-- A write of several bytes inside the address space keeps the canonical form. -/
theorem Memory.writeBytes_wf {m : Memory} {base : Nat} {bs : List Byte} (hm : m.wf)
    (h : base + bs.length ≤ memSize) : (m.writeBytes base bs).wf := by
  induction bs generalizing m base with
  | nil => exact hm
  | cons b rest ih =>
    simp only [List.length_cons] at h
    exact ih (Memory.write_wf hm (by omega)) (by omega)

/-- How many bytes a read gives. -/
@[simp] theorem Memory.length_readBytes (m : Memory) (base n : Nat) : (m.readBytes base n).length = n := by
  induction n generalizing base with
  | zero => rfl
  | succ n ih => simp [Memory.readBytes, ih]

/-- Which byte of a read is which. -/
@[simp] theorem Memory.getElem_readBytes (m : Memory) (base n j : Nat) (h : j < (m.readBytes base n).length) :
    (m.readBytes base n)[j] = m.read (base + j) := by
  induction n generalizing base j with
  | zero => rw [Memory.length_readBytes] at h; exact absurd h (Nat.not_lt_zero j)
  | succ n ih =>
    cases j with
    | zero => rfl
    | succ j => simp [Memory.readBytes, ih, Nat.add_comm, Nat.add_left_comm]

/-- The bounds check says that the last byte lies in memory (20_memory R66). -/
theorem inBounds_iff (base n : Nat) : inBounds base n = true ↔ n = 0 ∨ base + n - 1 ≤ 0xFFF := by
  simp [inBounds]

/-- An access in bounds of at least one byte ends inside the address space. -/
theorem inBounds_le {base n : Nat} (h : inBounds base n = true) (hn : 0 < n) : base + n ≤ memSize := by
  rw [inBounds_iff] at h
  unfold memSize
  omega

end Sys2Proof.Machine
end

