-- ==== Sys2Proof/Laws/State.lean ====
section
/-! SUPPORT. What every update does to every field of State: no later proof unfolds a record update. -/

namespace Sys2Proof.Machine

/-! ### setMem -/

@[simp] theorem State.setMem_mem (v : Memory) (s : State) : (s.setMem v).mem = v := rfl
@[simp] theorem State.setMem_display (v : Memory) (s : State) : (s.setMem v).display = s.display := rfl
@[simp] theorem State.setMem_pc (v : Memory) (s : State) : (s.setMem v).pc = s.pc := rfl
@[simp] theorem State.setMem_i (v : Memory) (s : State) : (s.setMem v).i = s.i := rfl
@[simp] theorem State.setMem_stack (v : Memory) (s : State) : (s.setMem v).stack = s.stack := rfl
@[simp] theorem State.setMem_depth (v : Memory) (s : State) : (s.setMem v).depth = s.depth := rfl
@[simp] theorem State.setMem_dt (v : Memory) (s : State) : (s.setMem v).dt = s.dt := rfl
@[simp] theorem State.setMem_st (v : Memory) (s : State) : (s.setMem v).st = s.st := rfl
@[simp] theorem State.setMem_regs (v : Memory) (s : State) : (s.setMem v).regs = s.regs := rfl
@[simp] theorem State.setMem_key (v : Memory) (s : State) : (s.setMem v).key = s.key := rfl
@[simp] theorem State.setMem_just (v : Memory) (s : State) : (s.setMem v).just = s.just := rfl
@[simp] theorem State.setMem_cfg (v : Memory) (s : State) : (s.setMem v).cfg = s.cfg := rfl
@[simp] theorem State.setMem_iter (v : Memory) (s : State) : (s.setMem v).iter = s.iter := rfl
@[simp] theorem State.setMem_fault (v : Memory) (s : State) : (s.setMem v).fault = s.fault := rfl
@[simp] theorem State.setMem_draws (v : Memory) (s : State) : (s.setMem v).draws = s.draws := rfl
@[simp] theorem State.setMem_agenda (v : Memory) (s : State) : (s.setMem v).agenda = s.agenda := rfl
@[simp] theorem State.setMem_reg (v : Memory) (s : State) (r : Reg) : (s.setMem v).reg r = s.reg r := rfl

/-! ### setDisplay -/

@[simp] theorem State.setDisplay_mem (v : Display) (s : State) : (s.setDisplay v).mem = s.mem := rfl
@[simp] theorem State.setDisplay_display (v : Display) (s : State) : (s.setDisplay v).display = v := rfl
@[simp] theorem State.setDisplay_pc (v : Display) (s : State) : (s.setDisplay v).pc = s.pc := rfl
@[simp] theorem State.setDisplay_i (v : Display) (s : State) : (s.setDisplay v).i = s.i := rfl
@[simp] theorem State.setDisplay_stack (v : Display) (s : State) : (s.setDisplay v).stack = s.stack := rfl
@[simp] theorem State.setDisplay_depth (v : Display) (s : State) : (s.setDisplay v).depth = s.depth := rfl
@[simp] theorem State.setDisplay_dt (v : Display) (s : State) : (s.setDisplay v).dt = s.dt := rfl
@[simp] theorem State.setDisplay_st (v : Display) (s : State) : (s.setDisplay v).st = s.st := rfl
@[simp] theorem State.setDisplay_regs (v : Display) (s : State) : (s.setDisplay v).regs = s.regs := rfl
@[simp] theorem State.setDisplay_key (v : Display) (s : State) : (s.setDisplay v).key = s.key := rfl
@[simp] theorem State.setDisplay_just (v : Display) (s : State) : (s.setDisplay v).just = s.just := rfl
@[simp] theorem State.setDisplay_cfg (v : Display) (s : State) : (s.setDisplay v).cfg = s.cfg := rfl
@[simp] theorem State.setDisplay_iter (v : Display) (s : State) : (s.setDisplay v).iter = s.iter := rfl
@[simp] theorem State.setDisplay_fault (v : Display) (s : State) : (s.setDisplay v).fault = s.fault := rfl
@[simp] theorem State.setDisplay_draws (v : Display) (s : State) : (s.setDisplay v).draws = s.draws := rfl
@[simp] theorem State.setDisplay_agenda (v : Display) (s : State) : (s.setDisplay v).agenda = s.agenda := rfl
@[simp] theorem State.setDisplay_reg (v : Display) (s : State) (r : Reg) : (s.setDisplay v).reg r = s.reg r := rfl

/-! ### setPc -/

@[simp] theorem State.setPc_mem (v : Word) (s : State) : (s.setPc v).mem = s.mem := rfl
@[simp] theorem State.setPc_display (v : Word) (s : State) : (s.setPc v).display = s.display := rfl
@[simp] theorem State.setPc_pc (v : Word) (s : State) : (s.setPc v).pc = v := rfl
@[simp] theorem State.setPc_i (v : Word) (s : State) : (s.setPc v).i = s.i := rfl
@[simp] theorem State.setPc_stack (v : Word) (s : State) : (s.setPc v).stack = s.stack := rfl
@[simp] theorem State.setPc_depth (v : Word) (s : State) : (s.setPc v).depth = s.depth := rfl
@[simp] theorem State.setPc_dt (v : Word) (s : State) : (s.setPc v).dt = s.dt := rfl
@[simp] theorem State.setPc_st (v : Word) (s : State) : (s.setPc v).st = s.st := rfl
@[simp] theorem State.setPc_regs (v : Word) (s : State) : (s.setPc v).regs = s.regs := rfl
@[simp] theorem State.setPc_key (v : Word) (s : State) : (s.setPc v).key = s.key := rfl
@[simp] theorem State.setPc_just (v : Word) (s : State) : (s.setPc v).just = s.just := rfl
@[simp] theorem State.setPc_cfg (v : Word) (s : State) : (s.setPc v).cfg = s.cfg := rfl
@[simp] theorem State.setPc_iter (v : Word) (s : State) : (s.setPc v).iter = s.iter := rfl
@[simp] theorem State.setPc_fault (v : Word) (s : State) : (s.setPc v).fault = s.fault := rfl
@[simp] theorem State.setPc_draws (v : Word) (s : State) : (s.setPc v).draws = s.draws := rfl
@[simp] theorem State.setPc_agenda (v : Word) (s : State) : (s.setPc v).agenda = s.agenda := rfl
@[simp] theorem State.setPc_reg (v : Word) (s : State) (r : Reg) : (s.setPc v).reg r = s.reg r := rfl

/-! ### setI -/

@[simp] theorem State.setI_mem (v : Word) (s : State) : (s.setI v).mem = s.mem := rfl
@[simp] theorem State.setI_display (v : Word) (s : State) : (s.setI v).display = s.display := rfl
@[simp] theorem State.setI_pc (v : Word) (s : State) : (s.setI v).pc = s.pc := rfl
@[simp] theorem State.setI_i (v : Word) (s : State) : (s.setI v).i = v := rfl
@[simp] theorem State.setI_stack (v : Word) (s : State) : (s.setI v).stack = s.stack := rfl
@[simp] theorem State.setI_depth (v : Word) (s : State) : (s.setI v).depth = s.depth := rfl
@[simp] theorem State.setI_dt (v : Word) (s : State) : (s.setI v).dt = s.dt := rfl
@[simp] theorem State.setI_st (v : Word) (s : State) : (s.setI v).st = s.st := rfl
@[simp] theorem State.setI_regs (v : Word) (s : State) : (s.setI v).regs = s.regs := rfl
@[simp] theorem State.setI_key (v : Word) (s : State) : (s.setI v).key = s.key := rfl
@[simp] theorem State.setI_just (v : Word) (s : State) : (s.setI v).just = s.just := rfl
@[simp] theorem State.setI_cfg (v : Word) (s : State) : (s.setI v).cfg = s.cfg := rfl
@[simp] theorem State.setI_iter (v : Word) (s : State) : (s.setI v).iter = s.iter := rfl
@[simp] theorem State.setI_fault (v : Word) (s : State) : (s.setI v).fault = s.fault := rfl
@[simp] theorem State.setI_draws (v : Word) (s : State) : (s.setI v).draws = s.draws := rfl
@[simp] theorem State.setI_agenda (v : Word) (s : State) : (s.setI v).agenda = s.agenda := rfl
@[simp] theorem State.setI_reg (v : Word) (s : State) (r : Reg) : (s.setI v).reg r = s.reg r := rfl

/-! ### setStack -/

@[simp] theorem State.setStack_mem (v : Vector Word 16) (s : State) : (s.setStack v).mem = s.mem := rfl
@[simp] theorem State.setStack_display (v : Vector Word 16) (s : State) : (s.setStack v).display = s.display := rfl
@[simp] theorem State.setStack_pc (v : Vector Word 16) (s : State) : (s.setStack v).pc = s.pc := rfl
@[simp] theorem State.setStack_i (v : Vector Word 16) (s : State) : (s.setStack v).i = s.i := rfl
@[simp] theorem State.setStack_stack (v : Vector Word 16) (s : State) : (s.setStack v).stack = v := rfl
@[simp] theorem State.setStack_depth (v : Vector Word 16) (s : State) : (s.setStack v).depth = s.depth := rfl
@[simp] theorem State.setStack_dt (v : Vector Word 16) (s : State) : (s.setStack v).dt = s.dt := rfl
@[simp] theorem State.setStack_st (v : Vector Word 16) (s : State) : (s.setStack v).st = s.st := rfl
@[simp] theorem State.setStack_regs (v : Vector Word 16) (s : State) : (s.setStack v).regs = s.regs := rfl
@[simp] theorem State.setStack_key (v : Vector Word 16) (s : State) : (s.setStack v).key = s.key := rfl
@[simp] theorem State.setStack_just (v : Vector Word 16) (s : State) : (s.setStack v).just = s.just := rfl
@[simp] theorem State.setStack_cfg (v : Vector Word 16) (s : State) : (s.setStack v).cfg = s.cfg := rfl
@[simp] theorem State.setStack_iter (v : Vector Word 16) (s : State) : (s.setStack v).iter = s.iter := rfl
@[simp] theorem State.setStack_fault (v : Vector Word 16) (s : State) : (s.setStack v).fault = s.fault := rfl
@[simp] theorem State.setStack_draws (v : Vector Word 16) (s : State) : (s.setStack v).draws = s.draws := rfl
@[simp] theorem State.setStack_agenda (v : Vector Word 16) (s : State) : (s.setStack v).agenda = s.agenda := rfl
@[simp] theorem State.setStack_reg (v : Vector Word 16) (s : State) (r : Reg) : (s.setStack v).reg r = s.reg r := rfl

/-! ### setDepth -/

@[simp] theorem State.setDepth_mem (v : Fin 17) (s : State) : (s.setDepth v).mem = s.mem := rfl
@[simp] theorem State.setDepth_display (v : Fin 17) (s : State) : (s.setDepth v).display = s.display := rfl
@[simp] theorem State.setDepth_pc (v : Fin 17) (s : State) : (s.setDepth v).pc = s.pc := rfl
@[simp] theorem State.setDepth_i (v : Fin 17) (s : State) : (s.setDepth v).i = s.i := rfl
@[simp] theorem State.setDepth_stack (v : Fin 17) (s : State) : (s.setDepth v).stack = s.stack := rfl
@[simp] theorem State.setDepth_depth (v : Fin 17) (s : State) : (s.setDepth v).depth = v := rfl
@[simp] theorem State.setDepth_dt (v : Fin 17) (s : State) : (s.setDepth v).dt = s.dt := rfl
@[simp] theorem State.setDepth_st (v : Fin 17) (s : State) : (s.setDepth v).st = s.st := rfl
@[simp] theorem State.setDepth_regs (v : Fin 17) (s : State) : (s.setDepth v).regs = s.regs := rfl
@[simp] theorem State.setDepth_key (v : Fin 17) (s : State) : (s.setDepth v).key = s.key := rfl
@[simp] theorem State.setDepth_just (v : Fin 17) (s : State) : (s.setDepth v).just = s.just := rfl
@[simp] theorem State.setDepth_cfg (v : Fin 17) (s : State) : (s.setDepth v).cfg = s.cfg := rfl
@[simp] theorem State.setDepth_iter (v : Fin 17) (s : State) : (s.setDepth v).iter = s.iter := rfl
@[simp] theorem State.setDepth_fault (v : Fin 17) (s : State) : (s.setDepth v).fault = s.fault := rfl
@[simp] theorem State.setDepth_draws (v : Fin 17) (s : State) : (s.setDepth v).draws = s.draws := rfl
@[simp] theorem State.setDepth_agenda (v : Fin 17) (s : State) : (s.setDepth v).agenda = s.agenda := rfl
@[simp] theorem State.setDepth_reg (v : Fin 17) (s : State) (r : Reg) : (s.setDepth v).reg r = s.reg r := rfl

/-! ### setDt -/

@[simp] theorem State.setDt_mem (v : Byte) (s : State) : (s.setDt v).mem = s.mem := rfl
@[simp] theorem State.setDt_display (v : Byte) (s : State) : (s.setDt v).display = s.display := rfl
@[simp] theorem State.setDt_pc (v : Byte) (s : State) : (s.setDt v).pc = s.pc := rfl
@[simp] theorem State.setDt_i (v : Byte) (s : State) : (s.setDt v).i = s.i := rfl
@[simp] theorem State.setDt_stack (v : Byte) (s : State) : (s.setDt v).stack = s.stack := rfl
@[simp] theorem State.setDt_depth (v : Byte) (s : State) : (s.setDt v).depth = s.depth := rfl
@[simp] theorem State.setDt_dt (v : Byte) (s : State) : (s.setDt v).dt = v := rfl
@[simp] theorem State.setDt_st (v : Byte) (s : State) : (s.setDt v).st = s.st := rfl
@[simp] theorem State.setDt_regs (v : Byte) (s : State) : (s.setDt v).regs = s.regs := rfl
@[simp] theorem State.setDt_key (v : Byte) (s : State) : (s.setDt v).key = s.key := rfl
@[simp] theorem State.setDt_just (v : Byte) (s : State) : (s.setDt v).just = s.just := rfl
@[simp] theorem State.setDt_cfg (v : Byte) (s : State) : (s.setDt v).cfg = s.cfg := rfl
@[simp] theorem State.setDt_iter (v : Byte) (s : State) : (s.setDt v).iter = s.iter := rfl
@[simp] theorem State.setDt_fault (v : Byte) (s : State) : (s.setDt v).fault = s.fault := rfl
@[simp] theorem State.setDt_draws (v : Byte) (s : State) : (s.setDt v).draws = s.draws := rfl
@[simp] theorem State.setDt_agenda (v : Byte) (s : State) : (s.setDt v).agenda = s.agenda := rfl
@[simp] theorem State.setDt_reg (v : Byte) (s : State) (r : Reg) : (s.setDt v).reg r = s.reg r := rfl

/-! ### setSt -/

@[simp] theorem State.setSt_mem (v : Byte) (s : State) : (s.setSt v).mem = s.mem := rfl
@[simp] theorem State.setSt_display (v : Byte) (s : State) : (s.setSt v).display = s.display := rfl
@[simp] theorem State.setSt_pc (v : Byte) (s : State) : (s.setSt v).pc = s.pc := rfl
@[simp] theorem State.setSt_i (v : Byte) (s : State) : (s.setSt v).i = s.i := rfl
@[simp] theorem State.setSt_stack (v : Byte) (s : State) : (s.setSt v).stack = s.stack := rfl
@[simp] theorem State.setSt_depth (v : Byte) (s : State) : (s.setSt v).depth = s.depth := rfl
@[simp] theorem State.setSt_dt (v : Byte) (s : State) : (s.setSt v).dt = s.dt := rfl
@[simp] theorem State.setSt_st (v : Byte) (s : State) : (s.setSt v).st = v := rfl
@[simp] theorem State.setSt_regs (v : Byte) (s : State) : (s.setSt v).regs = s.regs := rfl
@[simp] theorem State.setSt_key (v : Byte) (s : State) : (s.setSt v).key = s.key := rfl
@[simp] theorem State.setSt_just (v : Byte) (s : State) : (s.setSt v).just = s.just := rfl
@[simp] theorem State.setSt_cfg (v : Byte) (s : State) : (s.setSt v).cfg = s.cfg := rfl
@[simp] theorem State.setSt_iter (v : Byte) (s : State) : (s.setSt v).iter = s.iter := rfl
@[simp] theorem State.setSt_fault (v : Byte) (s : State) : (s.setSt v).fault = s.fault := rfl
@[simp] theorem State.setSt_draws (v : Byte) (s : State) : (s.setSt v).draws = s.draws := rfl
@[simp] theorem State.setSt_agenda (v : Byte) (s : State) : (s.setSt v).agenda = s.agenda := rfl
@[simp] theorem State.setSt_reg (v : Byte) (s : State) (r : Reg) : (s.setSt v).reg r = s.reg r := rfl

/-! ### setRegs -/

@[simp] theorem State.setRegs_mem (v : Vector Byte 16) (s : State) : (s.setRegs v).mem = s.mem := rfl
@[simp] theorem State.setRegs_display (v : Vector Byte 16) (s : State) : (s.setRegs v).display = s.display := rfl
@[simp] theorem State.setRegs_pc (v : Vector Byte 16) (s : State) : (s.setRegs v).pc = s.pc := rfl
@[simp] theorem State.setRegs_i (v : Vector Byte 16) (s : State) : (s.setRegs v).i = s.i := rfl
@[simp] theorem State.setRegs_stack (v : Vector Byte 16) (s : State) : (s.setRegs v).stack = s.stack := rfl
@[simp] theorem State.setRegs_depth (v : Vector Byte 16) (s : State) : (s.setRegs v).depth = s.depth := rfl
@[simp] theorem State.setRegs_dt (v : Vector Byte 16) (s : State) : (s.setRegs v).dt = s.dt := rfl
@[simp] theorem State.setRegs_st (v : Vector Byte 16) (s : State) : (s.setRegs v).st = s.st := rfl
@[simp] theorem State.setRegs_regs (v : Vector Byte 16) (s : State) : (s.setRegs v).regs = v := rfl
@[simp] theorem State.setRegs_key (v : Vector Byte 16) (s : State) : (s.setRegs v).key = s.key := rfl
@[simp] theorem State.setRegs_just (v : Vector Byte 16) (s : State) : (s.setRegs v).just = s.just := rfl
@[simp] theorem State.setRegs_cfg (v : Vector Byte 16) (s : State) : (s.setRegs v).cfg = s.cfg := rfl
@[simp] theorem State.setRegs_iter (v : Vector Byte 16) (s : State) : (s.setRegs v).iter = s.iter := rfl
@[simp] theorem State.setRegs_fault (v : Vector Byte 16) (s : State) : (s.setRegs v).fault = s.fault := rfl
@[simp] theorem State.setRegs_draws (v : Vector Byte 16) (s : State) : (s.setRegs v).draws = s.draws := rfl
@[simp] theorem State.setRegs_agenda (v : Vector Byte 16) (s : State) : (s.setRegs v).agenda = s.agenda := rfl

/-! ### setKey -/

@[simp] theorem State.setKey_mem (v : BitVec 16) (s : State) : (s.setKey v).mem = s.mem := rfl
@[simp] theorem State.setKey_display (v : BitVec 16) (s : State) : (s.setKey v).display = s.display := rfl
@[simp] theorem State.setKey_pc (v : BitVec 16) (s : State) : (s.setKey v).pc = s.pc := rfl
@[simp] theorem State.setKey_i (v : BitVec 16) (s : State) : (s.setKey v).i = s.i := rfl
@[simp] theorem State.setKey_stack (v : BitVec 16) (s : State) : (s.setKey v).stack = s.stack := rfl
@[simp] theorem State.setKey_depth (v : BitVec 16) (s : State) : (s.setKey v).depth = s.depth := rfl
@[simp] theorem State.setKey_dt (v : BitVec 16) (s : State) : (s.setKey v).dt = s.dt := rfl
@[simp] theorem State.setKey_st (v : BitVec 16) (s : State) : (s.setKey v).st = s.st := rfl
@[simp] theorem State.setKey_regs (v : BitVec 16) (s : State) : (s.setKey v).regs = s.regs := rfl
@[simp] theorem State.setKey_key (v : BitVec 16) (s : State) : (s.setKey v).key = v := rfl
@[simp] theorem State.setKey_just (v : BitVec 16) (s : State) : (s.setKey v).just = s.just := rfl
@[simp] theorem State.setKey_cfg (v : BitVec 16) (s : State) : (s.setKey v).cfg = s.cfg := rfl
@[simp] theorem State.setKey_iter (v : BitVec 16) (s : State) : (s.setKey v).iter = s.iter := rfl
@[simp] theorem State.setKey_fault (v : BitVec 16) (s : State) : (s.setKey v).fault = s.fault := rfl
@[simp] theorem State.setKey_draws (v : BitVec 16) (s : State) : (s.setKey v).draws = s.draws := rfl
@[simp] theorem State.setKey_agenda (v : BitVec 16) (s : State) : (s.setKey v).agenda = s.agenda := rfl
@[simp] theorem State.setKey_reg (v : BitVec 16) (s : State) (r : Reg) : (s.setKey v).reg r = s.reg r := rfl

/-! ### setJust -/

@[simp] theorem State.setJust_mem (v : BitVec 16) (s : State) : (s.setJust v).mem = s.mem := rfl
@[simp] theorem State.setJust_display (v : BitVec 16) (s : State) : (s.setJust v).display = s.display := rfl
@[simp] theorem State.setJust_pc (v : BitVec 16) (s : State) : (s.setJust v).pc = s.pc := rfl
@[simp] theorem State.setJust_i (v : BitVec 16) (s : State) : (s.setJust v).i = s.i := rfl
@[simp] theorem State.setJust_stack (v : BitVec 16) (s : State) : (s.setJust v).stack = s.stack := rfl
@[simp] theorem State.setJust_depth (v : BitVec 16) (s : State) : (s.setJust v).depth = s.depth := rfl
@[simp] theorem State.setJust_dt (v : BitVec 16) (s : State) : (s.setJust v).dt = s.dt := rfl
@[simp] theorem State.setJust_st (v : BitVec 16) (s : State) : (s.setJust v).st = s.st := rfl
@[simp] theorem State.setJust_regs (v : BitVec 16) (s : State) : (s.setJust v).regs = s.regs := rfl
@[simp] theorem State.setJust_key (v : BitVec 16) (s : State) : (s.setJust v).key = s.key := rfl
@[simp] theorem State.setJust_just (v : BitVec 16) (s : State) : (s.setJust v).just = v := rfl
@[simp] theorem State.setJust_cfg (v : BitVec 16) (s : State) : (s.setJust v).cfg = s.cfg := rfl
@[simp] theorem State.setJust_iter (v : BitVec 16) (s : State) : (s.setJust v).iter = s.iter := rfl
@[simp] theorem State.setJust_fault (v : BitVec 16) (s : State) : (s.setJust v).fault = s.fault := rfl
@[simp] theorem State.setJust_draws (v : BitVec 16) (s : State) : (s.setJust v).draws = s.draws := rfl
@[simp] theorem State.setJust_agenda (v : BitVec 16) (s : State) : (s.setJust v).agenda = s.agenda := rfl
@[simp] theorem State.setJust_reg (v : BitVec 16) (s : State) (r : Reg) : (s.setJust v).reg r = s.reg r := rfl

/-! ### setIter -/

@[simp] theorem State.setIter_mem (v : Nat) (s : State) : (s.setIter v).mem = s.mem := rfl
@[simp] theorem State.setIter_display (v : Nat) (s : State) : (s.setIter v).display = s.display := rfl
@[simp] theorem State.setIter_pc (v : Nat) (s : State) : (s.setIter v).pc = s.pc := rfl
@[simp] theorem State.setIter_i (v : Nat) (s : State) : (s.setIter v).i = s.i := rfl
@[simp] theorem State.setIter_stack (v : Nat) (s : State) : (s.setIter v).stack = s.stack := rfl
@[simp] theorem State.setIter_depth (v : Nat) (s : State) : (s.setIter v).depth = s.depth := rfl
@[simp] theorem State.setIter_dt (v : Nat) (s : State) : (s.setIter v).dt = s.dt := rfl
@[simp] theorem State.setIter_st (v : Nat) (s : State) : (s.setIter v).st = s.st := rfl
@[simp] theorem State.setIter_regs (v : Nat) (s : State) : (s.setIter v).regs = s.regs := rfl
@[simp] theorem State.setIter_key (v : Nat) (s : State) : (s.setIter v).key = s.key := rfl
@[simp] theorem State.setIter_just (v : Nat) (s : State) : (s.setIter v).just = s.just := rfl
@[simp] theorem State.setIter_cfg (v : Nat) (s : State) : (s.setIter v).cfg = s.cfg := rfl
@[simp] theorem State.setIter_iter (v : Nat) (s : State) : (s.setIter v).iter = v := rfl
@[simp] theorem State.setIter_fault (v : Nat) (s : State) : (s.setIter v).fault = s.fault := rfl
@[simp] theorem State.setIter_draws (v : Nat) (s : State) : (s.setIter v).draws = s.draws := rfl
@[simp] theorem State.setIter_agenda (v : Nat) (s : State) : (s.setIter v).agenda = s.agenda := rfl
@[simp] theorem State.setIter_reg (v : Nat) (s : State) (r : Reg) : (s.setIter v).reg r = s.reg r := rfl

/-! ### setFault -/

@[simp] theorem State.setFault_mem (v : Option FaultRecord) (s : State) : (s.setFault v).mem = s.mem := rfl
@[simp] theorem State.setFault_display (v : Option FaultRecord) (s : State) : (s.setFault v).display = s.display := rfl
@[simp] theorem State.setFault_pc (v : Option FaultRecord) (s : State) : (s.setFault v).pc = s.pc := rfl
@[simp] theorem State.setFault_i (v : Option FaultRecord) (s : State) : (s.setFault v).i = s.i := rfl
@[simp] theorem State.setFault_stack (v : Option FaultRecord) (s : State) : (s.setFault v).stack = s.stack := rfl
@[simp] theorem State.setFault_depth (v : Option FaultRecord) (s : State) : (s.setFault v).depth = s.depth := rfl
@[simp] theorem State.setFault_dt (v : Option FaultRecord) (s : State) : (s.setFault v).dt = s.dt := rfl
@[simp] theorem State.setFault_st (v : Option FaultRecord) (s : State) : (s.setFault v).st = s.st := rfl
@[simp] theorem State.setFault_regs (v : Option FaultRecord) (s : State) : (s.setFault v).regs = s.regs := rfl
@[simp] theorem State.setFault_key (v : Option FaultRecord) (s : State) : (s.setFault v).key = s.key := rfl
@[simp] theorem State.setFault_just (v : Option FaultRecord) (s : State) : (s.setFault v).just = s.just := rfl
@[simp] theorem State.setFault_cfg (v : Option FaultRecord) (s : State) : (s.setFault v).cfg = s.cfg := rfl
@[simp] theorem State.setFault_iter (v : Option FaultRecord) (s : State) : (s.setFault v).iter = s.iter := rfl
@[simp] theorem State.setFault_fault (v : Option FaultRecord) (s : State) : (s.setFault v).fault = v := rfl
@[simp] theorem State.setFault_draws (v : Option FaultRecord) (s : State) : (s.setFault v).draws = s.draws := rfl
@[simp] theorem State.setFault_agenda (v : Option FaultRecord) (s : State) : (s.setFault v).agenda = s.agenda := rfl
@[simp] theorem State.setFault_reg (v : Option FaultRecord) (s : State) (r : Reg) : (s.setFault v).reg r = s.reg r := rfl

/-! ### setDraws -/

@[simp] theorem State.setDraws_mem (v : Nat) (s : State) : (s.setDraws v).mem = s.mem := rfl
@[simp] theorem State.setDraws_display (v : Nat) (s : State) : (s.setDraws v).display = s.display := rfl
@[simp] theorem State.setDraws_pc (v : Nat) (s : State) : (s.setDraws v).pc = s.pc := rfl
@[simp] theorem State.setDraws_i (v : Nat) (s : State) : (s.setDraws v).i = s.i := rfl
@[simp] theorem State.setDraws_stack (v : Nat) (s : State) : (s.setDraws v).stack = s.stack := rfl
@[simp] theorem State.setDraws_depth (v : Nat) (s : State) : (s.setDraws v).depth = s.depth := rfl
@[simp] theorem State.setDraws_dt (v : Nat) (s : State) : (s.setDraws v).dt = s.dt := rfl
@[simp] theorem State.setDraws_st (v : Nat) (s : State) : (s.setDraws v).st = s.st := rfl
@[simp] theorem State.setDraws_regs (v : Nat) (s : State) : (s.setDraws v).regs = s.regs := rfl
@[simp] theorem State.setDraws_key (v : Nat) (s : State) : (s.setDraws v).key = s.key := rfl
@[simp] theorem State.setDraws_just (v : Nat) (s : State) : (s.setDraws v).just = s.just := rfl
@[simp] theorem State.setDraws_cfg (v : Nat) (s : State) : (s.setDraws v).cfg = s.cfg := rfl
@[simp] theorem State.setDraws_iter (v : Nat) (s : State) : (s.setDraws v).iter = s.iter := rfl
@[simp] theorem State.setDraws_fault (v : Nat) (s : State) : (s.setDraws v).fault = s.fault := rfl
@[simp] theorem State.setDraws_draws (v : Nat) (s : State) : (s.setDraws v).draws = v := rfl
@[simp] theorem State.setDraws_agenda (v : Nat) (s : State) : (s.setDraws v).agenda = s.agenda := rfl
@[simp] theorem State.setDraws_reg (v : Nat) (s : State) (r : Reg) : (s.setDraws v).reg r = s.reg r := rfl

/-! ### setAgenda -/

@[simp] theorem State.setAgenda_mem (v : List HostMove) (s : State) : (s.setAgenda v).mem = s.mem := rfl
@[simp] theorem State.setAgenda_display (v : List HostMove) (s : State) : (s.setAgenda v).display = s.display := rfl
@[simp] theorem State.setAgenda_pc (v : List HostMove) (s : State) : (s.setAgenda v).pc = s.pc := rfl
@[simp] theorem State.setAgenda_i (v : List HostMove) (s : State) : (s.setAgenda v).i = s.i := rfl
@[simp] theorem State.setAgenda_stack (v : List HostMove) (s : State) : (s.setAgenda v).stack = s.stack := rfl
@[simp] theorem State.setAgenda_depth (v : List HostMove) (s : State) : (s.setAgenda v).depth = s.depth := rfl
@[simp] theorem State.setAgenda_dt (v : List HostMove) (s : State) : (s.setAgenda v).dt = s.dt := rfl
@[simp] theorem State.setAgenda_st (v : List HostMove) (s : State) : (s.setAgenda v).st = s.st := rfl
@[simp] theorem State.setAgenda_regs (v : List HostMove) (s : State) : (s.setAgenda v).regs = s.regs := rfl
@[simp] theorem State.setAgenda_key (v : List HostMove) (s : State) : (s.setAgenda v).key = s.key := rfl
@[simp] theorem State.setAgenda_just (v : List HostMove) (s : State) : (s.setAgenda v).just = s.just := rfl
@[simp] theorem State.setAgenda_cfg (v : List HostMove) (s : State) : (s.setAgenda v).cfg = s.cfg := rfl
@[simp] theorem State.setAgenda_iter (v : List HostMove) (s : State) : (s.setAgenda v).iter = s.iter := rfl
@[simp] theorem State.setAgenda_fault (v : List HostMove) (s : State) : (s.setAgenda v).fault = s.fault := rfl
@[simp] theorem State.setAgenda_draws (v : List HostMove) (s : State) : (s.setAgenda v).draws = s.draws := rfl
@[simp] theorem State.setAgenda_agenda (v : List HostMove) (s : State) : (s.setAgenda v).agenda = v := rfl
@[simp] theorem State.setAgenda_reg (v : List HostMove) (s : State) (r : Reg) : (s.setAgenda v).reg r = s.reg r := rfl

/-! ### setReg -/

@[simp] theorem State.setReg_mem (x : Reg) (v : Byte) (s : State) : (s.setReg x v).mem = s.mem := rfl
@[simp] theorem State.setReg_display (x : Reg) (v : Byte) (s : State) : (s.setReg x v).display = s.display := rfl
@[simp] theorem State.setReg_pc (x : Reg) (v : Byte) (s : State) : (s.setReg x v).pc = s.pc := rfl
@[simp] theorem State.setReg_i (x : Reg) (v : Byte) (s : State) : (s.setReg x v).i = s.i := rfl
@[simp] theorem State.setReg_stack (x : Reg) (v : Byte) (s : State) : (s.setReg x v).stack = s.stack := rfl
@[simp] theorem State.setReg_depth (x : Reg) (v : Byte) (s : State) : (s.setReg x v).depth = s.depth := rfl
@[simp] theorem State.setReg_dt (x : Reg) (v : Byte) (s : State) : (s.setReg x v).dt = s.dt := rfl
@[simp] theorem State.setReg_st (x : Reg) (v : Byte) (s : State) : (s.setReg x v).st = s.st := rfl
@[simp] theorem State.setReg_key (x : Reg) (v : Byte) (s : State) : (s.setReg x v).key = s.key := rfl
@[simp] theorem State.setReg_just (x : Reg) (v : Byte) (s : State) : (s.setReg x v).just = s.just := rfl
@[simp] theorem State.setReg_cfg (x : Reg) (v : Byte) (s : State) : (s.setReg x v).cfg = s.cfg := rfl
@[simp] theorem State.setReg_iter (x : Reg) (v : Byte) (s : State) : (s.setReg x v).iter = s.iter := rfl
@[simp] theorem State.setReg_fault (x : Reg) (v : Byte) (s : State) : (s.setReg x v).fault = s.fault := rfl
@[simp] theorem State.setReg_draws (x : Reg) (v : Byte) (s : State) : (s.setReg x v).draws = s.draws := rfl
@[simp] theorem State.setReg_agenda (x : Reg) (v : Byte) (s : State) : (s.setReg x v).agenda = s.agenda := rfl

/-- Reading a register after a register write. -/
@[simp] theorem State.setReg_reg (x : Reg) (v : Byte) (s : State) (r : Reg) :
    (s.setReg x v).reg r = if r = x then v else s.reg r := by
  simp [State.setReg, State.reg, Vector.getElem_set, BitVec.toNat_inj, eq_comm]

/-- Registers that read the same are the same registers. -/
theorem State.regs_ext {s t : State} (h : ∀ r, s.reg r = t.reg r) : s.regs = t.regs := by
  apply Vector.ext
  intro k hk
  have := h (BitVec.ofNat 4 k)
  simpa [State.reg, BitVec.toNat_ofNat, Nat.mod_eq_of_lt hk] using this

/-! ### advance -/

@[simp] theorem State.advance_mem (s : State) : s.advance.mem = s.mem := rfl
@[simp] theorem State.advance_display (s : State) : s.advance.display = s.display := rfl
@[simp] theorem State.advance_pc (s : State) : s.advance.pc = s.pc + 2 := rfl
@[simp] theorem State.advance_i (s : State) : s.advance.i = s.i := rfl
@[simp] theorem State.advance_stack (s : State) : s.advance.stack = s.stack := rfl
@[simp] theorem State.advance_depth (s : State) : s.advance.depth = s.depth := rfl
@[simp] theorem State.advance_dt (s : State) : s.advance.dt = s.dt := rfl
@[simp] theorem State.advance_st (s : State) : s.advance.st = s.st := rfl
@[simp] theorem State.advance_regs (s : State) : s.advance.regs = s.regs := rfl
@[simp] theorem State.advance_key (s : State) : s.advance.key = s.key := rfl
@[simp] theorem State.advance_just (s : State) : s.advance.just = s.just := rfl
@[simp] theorem State.advance_cfg (s : State) : s.advance.cfg = s.cfg := rfl
@[simp] theorem State.advance_iter (s : State) : s.advance.iter = s.iter := rfl
@[simp] theorem State.advance_fault (s : State) : s.advance.fault = s.fault := rfl
@[simp] theorem State.advance_draws (s : State) : s.advance.draws = s.draws := rfl
@[simp] theorem State.advance_agenda (s : State) : s.advance.agenda = s.agenda := rfl
@[simp] theorem State.advance_reg (s : State) (r : Reg) : s.advance.reg r = s.reg r := rfl

end Sys2Proof.Machine
end

