-- ==== Sys2Proof/Laws/Ops.lean ====
section
/-! SUPPORT. What each shared operation does, said once. -/

namespace Sys2Proof.Machine

/-! ## Ends of a cycle -/

/-- A completed cycle answers the state with the cycle counted. -/
@[simp] theorem complete_eq_next (s t : State) : complete s = .next t ↔ t = s.setIter (s.iter + 1) := by
  unfold complete; constructor
  · intro h; injection h with h; exact h.symm
  · rintro rfl; rfl

/-- A fault answers the state with the record in the latch. -/
@[simp] theorem raise_eq_next (k : FaultKind) (w : Word) (s t : State) :
    raise k w s = .next t ↔ t = s.setFault (some ⟨k, w, s.pc⟩) := by
  unfold raise; constructor
  · intro h; injection h with h; exact h.symm
  · rintro rfl; rfl

/-! ## Skip and rewind: only `pc` -/

/-- A skip changes `pc` alone. -/
theorem State.skipIf_eq (c : Bool) (s : State) : s.skipIf c = s.setPc (bif c then s.pc + 2 else s.pc) := by
  cases c <;> rfl

/-- Advancing and then rewinding is doing nothing. -/
@[simp] theorem State.advance_rewind (s : State) : s.advance.rewind = s := by
  simp [State.advance, State.rewind, State.setPc]

/-! ## The stack -/

/-- A push fails exactly when sixteen addresses are held. -/
theorem State.push_eq_none (v : Word) (s : State) : s.push v = none ↔ 16 ≤ s.depth.val := by
  unfold State.push; split <;> simp <;> omega

/-- All a push does: it writes the slot above the top and counts it. -/
theorem State.push_eq_some {v : Word} {s t : State} (h : s.push v = some t) :
    ∃ hd : s.depth.val < 16, t = (s.setStack (s.stack.set s.depth.val v hd)).setDepth ⟨s.depth.val + 1, by omega⟩ := by
  unfold State.push at h
  split at h
  · rename_i hd; exact ⟨hd, by simpa using h.symm⟩
  · cases h

/-- A pop fails exactly when the stack is empty. -/
theorem State.pop_eq_none (s : State) : s.pop = none ↔ s.depth.val = 0 := by
  unfold State.pop; split <;> simp <;> omega

/-- All a pop does: it gives the top slot and lowers the count. -/
theorem State.pop_eq_some {s t : State} {v : Word} (h : s.pop = some (v, t)) :
    ∃ hd : 0 < s.depth.val, v = s.stack[s.depth.val - 1]'(by omega) ∧ t = s.setDepth ⟨s.depth.val - 1, by omega⟩ := by
  unfold State.pop at h
  split at h
  · rename_i hd
    simp only [Option.some.injEq, Prod.mk.injEq] at h
    exact ⟨hd, h.1.symm, h.2.symm⟩
  · cases h

/-! ## Registers -/

/-- What every register holds after a result and a flag are written. -/
@[simp] theorem State.setRegThenFlag_reg (x : Reg) (v : Byte) (f : Bool) (s : State) (r : Reg) :
    (s.setRegThenFlag x v f).reg r = if r = vf then flagByte f else if r = x then v else s.reg r := by
  simp [State.setRegThenFlag]

/-- Writing a result and a flag changes the registers alone. -/
theorem State.setRegThenFlag_eq (x : Reg) (v : Byte) (f : Bool) (s : State) :
    s.setRegThenFlag x v f = s.setRegs (s.setRegThenFlag x v f).regs := rfl

/-- The policy of ADX changes the registers alone. -/
theorem State.indexFlag_eq (o : Bool) (s : State) : s.indexFlag o = s.setRegs (s.indexFlag o).regs := by
  unfold State.indexFlag; split <;> rfl

/-- What every register holds after the policy of ADX. -/
theorem State.indexFlag_reg (o : Bool) (s : State) (r : Reg) :
    (s.indexFlag o).reg r =
      if r = vf then
        match s.cfg.indexPolicy with
        | .overflowFlag => flagByte o
        | .vfFlush => 0
        | .untouched => s.reg r
      else s.reg r := by
  unfold State.indexFlag; split <;> simp_all

/-- Loading a range changes the registers alone. -/
theorem State.loadRegs_eq (j : Nat) (bs : List Byte) (s : State) :
    s.loadRegs j bs = s.setRegs (s.loadRegs j bs).regs := by
  induction bs generalizing j s with
  | nil => rfl
  | cons b rest ih =>
    have h := ih (j + 1) (s.setReg (BitVec.ofNat 4 j) b)
    simp only [State.loadRegs]
    rw [h]
    rfl

/-- What every register holds after a range is loaded. -/
theorem State.loadRegs_reg (j : Nat) (bs : List Byte) (s : State) (hj : j + bs.length ≤ 16) (r : Reg) :
    (s.loadRegs j bs).reg r =
      if h : j ≤ r.toNat ∧ r.toNat - j < bs.length then bs[r.toNat - j]'h.2 else s.reg r := by
  induction bs generalizing j s with
  | nil => simp [State.loadRegs]
  | cons b rest ih =>
    simp only [List.length_cons] at hj
    rw [State.loadRegs, ih (j + 1) _ (by omega), State.setReg_reg]
    by_cases h0 : r.toNat = j
    · have hr : r = BitVec.ofNat 4 j := by
        apply BitVec.eq_of_toNat_eq; simp [h0]; omega
      rw [dif_neg (by omega), if_pos hr, dif_pos ⟨by omega, by simp; omega⟩]
      simp [h0]
    · have hr : r ≠ BitVec.ofNat 4 j := by
        rintro rfl; apply h0; simp; omega
      by_cases h1 : j ≤ r.toNat
      · obtain ⟨k, hk⟩ : ∃ k, r.toNat = j + 1 + k := ⟨r.toNat - j - 1, by omega⟩
        have e : j + 1 + k - j = k + 1 := by omega
        simp [hk, e, hr, show j ≤ j + 1 + k by omega]
      · simp [h1, hr, show ¬ j + 1 ≤ r.toNat by omega]

/-- How many registers STM stores. -/
@[simp] theorem State.length_regsUpTo (x : Reg) (s : State) : (s.regsUpTo x).length = x.toNat + 1 := by
  simp [State.regsUpTo]

/-- Which register STM stores where. -/
@[simp] theorem State.getElem_regsUpTo (x : Reg) (s : State) (j : Nat) (h : j < (s.regsUpTo x).length) :
    (s.regsUpTo x)[j] = s.reg (BitVec.ofNat 4 j) := by
  simp [State.regsUpTo]

/-- The auto-increment changes `I` alone. -/
theorem State.dumpIncrement_eq (x : Reg) (s : State) :
    s.dumpIncrement x = s.setI (bif s.cfg.dumpIncrementsI then s.i + BitVec.ofNat 16 (x.toNat + 1) else s.i) := by
  unfold State.dumpIncrement rangeLength; cases s.cfg.dumpIncrementsI <;> rfl

/-! ## Flags and results in exact arithmetic (41_alu R170) -/

/-- The sum modulo 256. -/
theorem addResult_toNat (a b : Byte) : (addResult a b).toNat = (a.toNat + b.toNat) % 256 := by
  have ha := a.isLt; have hb := b.isLt
  simp [addResult, sum9, BitVec.toNat_setWidth, BitVec.toNat_add]

/-- The carry is set exactly when the sum passes 255. -/
theorem addCarry_iff (a b : Byte) : addCarry a b = true ↔ 255 < a.toNat + b.toNat := by
  have ha := a.isLt; have hb := b.isLt
  have h : (sum9 a b).toNat = a.toNat + b.toNat := by
    simp [sum9, BitVec.toNat_setWidth, BitVec.toNat_add]; omega
  rw [addCarry, BitVec.getLsbD, h, Nat.testBit_eq_decide_div_mod_eq]
  simp; omega

/-- The difference modulo 256. -/
theorem subResult_toNat (a b : Byte) : (subResult a b).toNat = (a.toNat + 256 - b.toNat) % 256 := by
  have ha := a.isLt; have hb := b.isLt
  simp [subResult, BitVec.toNat_sub]; omega

/-- The right shift halves; the bit out is the remainder. -/
theorem shiftRight_toNat (v : Byte) :
    (shiftRightResult v).toNat = v.toNat / 2 ∧ (flagByte (shiftRightOut v)).toNat = v.toNat % 2 := by
  revert v; decide

/-- The left shift doubles modulo 256; the bit out is the quotient by 128. -/
theorem shiftLeft_toNat (v : Byte) :
    (shiftLeftResult v).toNat = v.toNat * 2 % 256 ∧ (flagByte (shiftLeftOut v)).toNat = v.toNat / 128 := by
  revert v; decide

/-! ## Keys -/

/-- The lowest set bit: set, and no lower one is. -/
theorem lowestPressed_eq_some {j : BitVec 16} {k : Nat} :
    lowestPressed j = some k ↔ k < 16 ∧ j.getLsbD k = true ∧ ∀ m < k, j.getLsbD m = false := by
  unfold lowestPressed
  rw [List.find?_range_eq_some]
  simp only [List.mem_range, Bool.not_eq_true']
  tauto

/-- No bit is set. -/
theorem lowestPressed_eq_none {j : BitVec 16} : lowestPressed j = none ↔ ∀ k < 16, j.getLsbD k = false := by
  simp [lowestPressed]

end Sys2Proof.Machine
end

