-- ==== Sys2Proof/Laws/PerInstr.lean ====
section
/-! SUPPORT. Per instruction: its word is in the opcode table, under the entry that makes that instruction from the
word's fields (30_encoding R91, R92, R95, R108). -/

namespace Sys2Proof.Laws.InTable

/-- Some entry of the opcode table matches the word of the instruction and makes the instruction back from the word's
fields. -/
def Statement (i : Instr) : Prop :=
  ∃ e ∈ opcodeTable, e.matches (encode i) = true ∧ e.make (fieldsOf (encode i)) = i

/-! ## Fields of placed fields -/

theorem fieldX_or (p q : Word) : fieldX (p ||| q) = fieldX p ||| fieldX q := BitVec.extractLsb'_or ..
theorem fieldY_or (p q : Word) : fieldY (p ||| q) = fieldY p ||| fieldY q := BitVec.extractLsb'_or ..
theorem fieldN_or (p q : Word) : fieldN (p ||| q) = fieldN p ||| fieldN q := BitVec.extractLsb'_or ..
theorem fieldNN_or (p q : Word) : fieldNN (p ||| q) = fieldNN p ||| fieldNN q := BitVec.extractLsb'_or ..
theorem fieldNNN_or (p q : Word) : fieldNNN (p ||| q) = fieldNNN p ||| fieldNNN q := BitVec.extractLsb'_or ..

/-- A word with `X` placed: its fields. -/
theorem fields_placeXF (x : Reg) :
    fieldX (placeXF x) = x ∧ fieldY (placeXF x) = 0 ∧ fieldN (placeXF x) = 0 ∧ fieldNN (placeXF x) = 0 := by
  revert x; decide

/-- A word with `Y` placed: its fields. -/
theorem fields_placeY (y : Reg) :
    fieldX (y.setWidth 16 <<< 4) = 0 ∧ fieldY (y.setWidth 16 <<< 4) = y ∧ fieldN (y.setWidth 16 <<< 4) = 0 := by
  revert y; decide

/-- A word with `N` placed: its fields. -/
theorem fields_placeN (n : Nibble) :
    fieldX (n.setWidth 16) = 0 ∧ fieldY (n.setWidth 16) = 0 ∧ fieldN (n.setWidth 16) = n := by
  revert n; decide

/-- A word with `NN` placed: its fields. -/
theorem fields_placeNN (nn : Byte) : fieldX (nn.setWidth 16) = 0 ∧ fieldNN (nn.setWidth 16) = nn := by
  revert nn; decide

/-- A word with `NNN` placed: its field. -/
theorem fields_placeA (nnn : Addr) : fieldNNN (placeA nnn) = nnn := by
  apply BitVec.eq_of_getLsbD_eq; intro i hi; simp [fieldNNN, placeA, hi]; omega

/-! ## Placed fields under the masks -/

theorem placeXF_mask (x : Reg) : placeXF x &&& 0xF0FF = 0 ∧ placeXF x &&& 0xF00F = 0 ∧ placeXF x &&& 0xF000 = 0 := by
  revert x; decide

theorem placeY_mask (y : Reg) : (y.setWidth 16 <<< 4 : Word) &&& 0xF00F = 0 ∧ (y.setWidth 16 <<< 4 : Word) &&& 0xF000 = 0 := by
  revert y; decide

theorem placeN_mask (n : Nibble) : (n.setWidth 16 : Word) &&& 0xF000 = 0 := by revert n; decide

theorem placeNN_mask (nn : Byte) : (nn.setWidth 16 : Word) &&& 0xF000 = 0 := by revert nn; decide

theorem placeA_mask (nnn : Addr) : placeA nnn &&& 0xF000 = 0 := by
  have h : ∀ i : Fin 16, (0xF000#16).getLsbD i.val = decide (12 ≤ i.val) := by decide
  apply BitVec.eq_of_getLsbD_eq; intro i hi
  rw [BitVec.getLsbD_and, show BitVec.getLsbD (0xF000 : Word) i = decide (12 ≤ i) from h ⟨i, hi⟩]
  by_cases hlt : 12 ≤ i
  · simp [placeA, BitVec.getLsbD_of_ge nnn i hlt]
  · simp [hlt]

/-- Masks and fields distribute over the parts of a word. -/
theorem or_mask (p q m : Word) : (p ||| q) &&& m = (p &&& m) ||| (q &&& m) := by
  ext i hi; simp [Bool.and_or_distrib_right]

/-! ## The instructions -/

/-- From an entry's place in the table, the match of its masked word and the making back. -/
theorem of_entry {i : Instr} (k : Nat) (hk : k < opcodeTable.length)
    (hm : encode i &&& opcodeTable[k].mask = opcodeTable[k].pattern)
    (hf : opcodeTable[k].make (fieldsOf (encode i)) = i) : Statement i :=
  ⟨opcodeTable[k], List.getElem_mem hk, by simpa [Entry.matches] using hm, hf⟩

theorem matchA (p : Word) (nnn : Addr) (hp : p &&& 0xF000 = p) : (p ||| placeA nnn) &&& 0xF000 = p := by
  rw [or_mask, hp, placeA_mask]; simp

theorem matchXI (p : Word) (x : Reg) (nn : Byte) (hp : p &&& 0xF000 = p) : (p ||| placeXI x nn) &&& 0xF000 = p := by
  rw [placeXI, or_mask, or_mask, hp, (placeXF_mask x).2.2, placeNN_mask]; simp

theorem matchXY (p : Word) (x y : Reg) (hp : p &&& 0xF00F = p) : (p ||| placeXY x y) &&& 0xF00F = p := by
  rw [placeXY, or_mask, or_mask, hp, (placeXF_mask x).2.1, (placeY_mask y).1]; simp

theorem matchXYN (p : Word) (x y : Reg) (n : Nibble) (hp : p &&& 0xF000 = p) :
    (p ||| placeXYN x y n) &&& 0xF000 = p := by
  rw [placeXYN, placeXY, or_mask, or_mask, or_mask, hp, (placeXF_mask x).2.2, (placeY_mask y).2, placeN_mask]
  simp

theorem matchXF (p : Word) (x : Reg) (hp : p &&& 0xF0FF = p) : (p ||| placeXF x) &&& 0xF0FF = p := by
  rw [or_mask, hp, (placeXF_mask x).1]; simp

theorem fieldsA (p : Word) (nnn : Addr) (hp : fieldNNN p = 0) : fieldNNN (p ||| placeA nnn) = nnn := by
  rw [fieldNNN_or, hp, fields_placeA]; simp

theorem fieldsXI (p : Word) (x : Reg) (nn : Byte) (hp : fieldNNN p = 0 ∧ fieldX p = 0 ∧ fieldNN p = 0) :
    fieldX (p ||| placeXI x nn) = x ∧ fieldNN (p ||| placeXI x nn) = nn := by
  obtain ⟨h1, h2, h3, h4⟩ := fields_placeXF x
  obtain ⟨k1, k2⟩ := fields_placeNN nn
  simp [placeXI, fieldX_or, fieldNN_or, hp.2, h1, h4, k1, k2]

theorem fieldsXY (p : Word) (x y : Reg) (hp : fieldX p = 0 ∧ fieldY p = 0) :
    fieldX (p ||| placeXY x y) = x ∧ fieldY (p ||| placeXY x y) = y := by
  obtain ⟨h1, h2, h3, h4⟩ := fields_placeXF x
  obtain ⟨k1, k2, k3⟩ := fields_placeY y
  simp [placeXY, fieldX_or, fieldY_or, hp, h1, h2, k1, k2]

theorem fieldsXYN (p : Word) (x y : Reg) (n : Nibble) (hp : fieldX p = 0 ∧ fieldY p = 0 ∧ fieldN p = 0) :
    fieldX (p ||| placeXYN x y n) = x ∧ fieldY (p ||| placeXYN x y n) = y ∧ fieldN (p ||| placeXYN x y n) = n := by
  obtain ⟨h1, h2, h3, h4⟩ := fields_placeXF x
  obtain ⟨k1, k2, k3⟩ := fields_placeY y
  obtain ⟨l1, l2, l3⟩ := fields_placeN n
  simp [placeXYN, placeXY, fieldX_or, fieldY_or, fieldN_or, hp, h1, h2, h3, k1, k2, k3, l1, l2, l3]

theorem fieldsXF (p : Word) (x : Reg) (hp : fieldX p = 0) : fieldX (p ||| placeXF x) = x := by
  rw [fieldX_or, hp, (fields_placeXF x).1]; simp

theorem cls : Statement .cls :=
  of_entry 0 (by decide) (by decide) (by decide)

theorem ret : Statement .ret :=
  of_entry 1 (by decide) (by decide) (by decide)

theorem jmp (nnn : Addr) : Statement (.jmp nnn) :=
  of_entry 2 (by decide) (matchA 0x1000 nnn (by decide)) (congrArg Instr.jmp (fieldsA 0x1000 nnn (by decide)))

theorem call (nnn : Addr) : Statement (.call nnn) :=
  of_entry 3 (by decide) (matchA 0x2000 nnn (by decide)) (congrArg Instr.call (fieldsA 0x2000 nnn (by decide)))

theorem sei (x : Reg) (nn : Byte) : Statement (.sei x nn) :=
  of_entry 4 (by decide) (matchXI 0x3000 x nn (by decide))
    (congrArg₂ Instr.sei (fieldsXI 0x3000 x nn (by decide)).1 (fieldsXI 0x3000 x nn (by decide)).2)

theorem sni (x : Reg) (nn : Byte) : Statement (.sni x nn) :=
  of_entry 5 (by decide) (matchXI 0x4000 x nn (by decide))
    (congrArg₂ Instr.sni (fieldsXI 0x4000 x nn (by decide)).1 (fieldsXI 0x4000 x nn (by decide)).2)

theorem ser (x : Reg) (y : Reg) : Statement (.ser x y) :=
  of_entry 6 (by decide) (matchXY 0x5000 x y (by decide))
    (congrArg₂ Instr.ser (fieldsXY 0x5000 x y (by decide)).1 (fieldsXY 0x5000 x y (by decide)).2)

theorem ldi (x : Reg) (nn : Byte) : Statement (.ldi x nn) :=
  of_entry 7 (by decide) (matchXI 0x6000 x nn (by decide))
    (congrArg₂ Instr.ldi (fieldsXI 0x6000 x nn (by decide)).1 (fieldsXI 0x6000 x nn (by decide)).2)

theorem adi (x : Reg) (nn : Byte) : Statement (.adi x nn) :=
  of_entry 8 (by decide) (matchXI 0x7000 x nn (by decide))
    (congrArg₂ Instr.adi (fieldsXI 0x7000 x nn (by decide)).1 (fieldsXI 0x7000 x nn (by decide)).2)

theorem mov (x : Reg) (y : Reg) : Statement (.mov x y) :=
  of_entry 9 (by decide) (matchXY 0x8000 x y (by decide))
    (congrArg₂ Instr.mov (fieldsXY 0x8000 x y (by decide)).1 (fieldsXY 0x8000 x y (by decide)).2)

theorem orr (x : Reg) (y : Reg) : Statement (.orr x y) :=
  of_entry 10 (by decide) (matchXY 0x8001 x y (by decide))
    (congrArg₂ Instr.orr (fieldsXY 0x8001 x y (by decide)).1 (fieldsXY 0x8001 x y (by decide)).2)

theorem and (x : Reg) (y : Reg) : Statement (.and x y) :=
  of_entry 11 (by decide) (matchXY 0x8002 x y (by decide))
    (congrArg₂ Instr.and (fieldsXY 0x8002 x y (by decide)).1 (fieldsXY 0x8002 x y (by decide)).2)

theorem xor (x : Reg) (y : Reg) : Statement (.xor x y) :=
  of_entry 12 (by decide) (matchXY 0x8003 x y (by decide))
    (congrArg₂ Instr.xor (fieldsXY 0x8003 x y (by decide)).1 (fieldsXY 0x8003 x y (by decide)).2)

theorem add (x : Reg) (y : Reg) : Statement (.add x y) :=
  of_entry 13 (by decide) (matchXY 0x8004 x y (by decide))
    (congrArg₂ Instr.add (fieldsXY 0x8004 x y (by decide)).1 (fieldsXY 0x8004 x y (by decide)).2)

theorem sub (x : Reg) (y : Reg) : Statement (.sub x y) :=
  of_entry 14 (by decide) (matchXY 0x8005 x y (by decide))
    (congrArg₂ Instr.sub (fieldsXY 0x8005 x y (by decide)).1 (fieldsXY 0x8005 x y (by decide)).2)

theorem shr (x : Reg) (y : Reg) : Statement (.shr x y) :=
  of_entry 15 (by decide) (matchXY 0x8006 x y (by decide))
    (congrArg₂ Instr.shr (fieldsXY 0x8006 x y (by decide)).1 (fieldsXY 0x8006 x y (by decide)).2)

theorem rsb (x : Reg) (y : Reg) : Statement (.rsb x y) :=
  of_entry 16 (by decide) (matchXY 0x8007 x y (by decide))
    (congrArg₂ Instr.rsb (fieldsXY 0x8007 x y (by decide)).1 (fieldsXY 0x8007 x y (by decide)).2)

theorem shl (x : Reg) (y : Reg) : Statement (.shl x y) :=
  of_entry 17 (by decide) (matchXY 0x800E x y (by decide))
    (congrArg₂ Instr.shl (fieldsXY 0x800E x y (by decide)).1 (fieldsXY 0x800E x y (by decide)).2)

theorem snr (x : Reg) (y : Reg) : Statement (.snr x y) :=
  of_entry 18 (by decide) (matchXY 0x9000 x y (by decide))
    (congrArg₂ Instr.snr (fieldsXY 0x9000 x y (by decide)).1 (fieldsXY 0x9000 x y (by decide)).2)

theorem lda (nnn : Addr) : Statement (.lda nnn) :=
  of_entry 19 (by decide) (matchA 0xA000 nnn (by decide)) (congrArg Instr.lda (fieldsA 0xA000 nnn (by decide)))

theorem jpv (nnn : Addr) : Statement (.jpv nnn) :=
  of_entry 20 (by decide) (matchA 0xB000 nnn (by decide)) (congrArg Instr.jpv (fieldsA 0xB000 nnn (by decide)))

theorem rnd (x : Reg) (nn : Byte) : Statement (.rnd x nn) :=
  of_entry 21 (by decide) (matchXI 0xC000 x nn (by decide))
    (congrArg₂ Instr.rnd (fieldsXI 0xC000 x nn (by decide)).1 (fieldsXI 0xC000 x nn (by decide)).2)

theorem drw (x : Reg) (y : Reg) (n : Nibble) : Statement (.drw x y n) :=
  of_entry 22 (by decide) (matchXYN 0xD000 x y n (by decide)) (by
    obtain ⟨h1, h2, h3⟩ := fieldsXYN 0xD000 x y n (by decide)
    show Instr.drw (fieldX (0xD000 ||| placeXYN x y n)) (fieldY (0xD000 ||| placeXYN x y n)) (fieldN (0xD000 ||| placeXYN x y n)) = _
    rw [h1, h2, h3])

theorem skp (x : Reg) : Statement (.skp x) :=
  of_entry 23 (by decide) (matchXF 0xE09E x (by decide)) (congrArg Instr.skp (fieldsXF 0xE09E x (by decide)))

theorem sknp (x : Reg) : Statement (.sknp x) :=
  of_entry 24 (by decide) (matchXF 0xE0A1 x (by decide)) (congrArg Instr.sknp (fieldsXF 0xE0A1 x (by decide)))

theorem gdt (x : Reg) : Statement (.gdt x) :=
  of_entry 25 (by decide) (matchXF 0xF007 x (by decide)) (congrArg Instr.gdt (fieldsXF 0xF007 x (by decide)))

theorem key (x : Reg) : Statement (.key x) :=
  of_entry 26 (by decide) (matchXF 0xF00A x (by decide)) (congrArg Instr.key (fieldsXF 0xF00A x (by decide)))

theorem sdt (x : Reg) : Statement (.sdt x) :=
  of_entry 27 (by decide) (matchXF 0xF015 x (by decide)) (congrArg Instr.sdt (fieldsXF 0xF015 x (by decide)))

theorem sst (x : Reg) : Statement (.sst x) :=
  of_entry 28 (by decide) (matchXF 0xF018 x (by decide)) (congrArg Instr.sst (fieldsXF 0xF018 x (by decide)))

theorem adx (x : Reg) : Statement (.adx x) :=
  of_entry 29 (by decide) (matchXF 0xF01E x (by decide)) (congrArg Instr.adx (fieldsXF 0xF01E x (by decide)))

theorem fnt (x : Reg) : Statement (.fnt x) :=
  of_entry 30 (by decide) (matchXF 0xF029 x (by decide)) (congrArg Instr.fnt (fieldsXF 0xF029 x (by decide)))

theorem bcd (x : Reg) : Statement (.bcd x) :=
  of_entry 31 (by decide) (matchXF 0xF033 x (by decide)) (congrArg Instr.bcd (fieldsXF 0xF033 x (by decide)))

theorem stm (x : Reg) : Statement (.stm x) :=
  of_entry 32 (by decide) (matchXF 0xF055 x (by decide)) (congrArg Instr.stm (fieldsXF 0xF055 x (by decide)))

theorem ldm (x : Reg) : Statement (.ldm x) :=
  of_entry 33 (by decide) (matchXF 0xF065 x (by decide)) (congrArg Instr.ldm (fieldsXF 0xF065 x (by decide)))

theorem sys (nnn : Addr) : Statement (.sys nnn) :=
  of_entry 34 (by decide) (matchA 0x0000 nnn (by decide)) (congrArg Instr.sys (fieldsA 0x0000 nnn (by decide)))

end Sys2Proof.Laws.InTable
end

