-- ==== Sys2Proof/Laws/Step.lean ====
section
/-! SUPPORT. What a step can do, said once; runs one step at a time. -/

namespace Sys2Proof.Machine

/-- A completed cycle, as an equation. -/
theorem complete_eq (s : State) : complete s = .next (s.setIter (s.iter + 1)) := rfl

/-- A fault, as an equation. -/
theorem raise_eq (k : FaultKind) (w : Word) (s : State) : raise k w s = .next (faulted k w s) := rfl

/-- A step that answers a next state is a cycle of an engine that is not halted, or a move of the agenda. -/
theorem step_cases {s t : State} (h : step s = .next t) :
    (s.agenda = [] ∧ s.fault = none ∧ cycle s = .next t) ∨
    ∃ m rest, s.agenda = m :: rest ∧ applyMove m (s.setAgenda rest) = .next t := by
  unfold step nextMove at h
  split at h
  · exact .inr ⟨_, _, by assumption, h⟩
  · split at h
    · cases h
    · exact .inl ⟨by assumption, by assumption, h⟩

/-- A step of an engine that is not halted, when a cycle is next, is that cycle with the moves after it left. -/
theorem step_of_cycleIsNext {s : State} {rest : List HostMove} (h : CycleIsNext s rest) (hf : s.fault = none) :
    step s = cycle (s.setAgenda rest) := by
  rcases h with ⟨ha, rfl⟩ | ha
  · have e : s.setAgenda [] = s := by simp [State.setAgenda, ← ha]
    simp only [e, step, nextMove, ha, hf]
  · simp only [step, nextMove, ha, applyMove, State.setAgenda_fault, hf]

/-- A cycle that answers a next state is a fetch fault, a decode fault, or the decoded instruction's meaning. -/
theorem cycle_cases {s t : State} (h : cycle s = .next t) :
    (4094 < s.pc.toNat ∧ t = faulted .fetchOutOfBounds 0x0000 s) ∨
    (s.pc.toNat ≤ 4094 ∧ decodeWord s.fetchWord = none ∧ t = faulted .decodeFailure s.fetchWord s) ∨
    ∃ i, s.pc.toNat ≤ 4094 ∧ decodeWord s.fetchWord = some i ∧ exec i s = .next t := by
  unfold cycle at h
  split at h
  · rw [raise_eq_next] at h; exact .inl ⟨by assumption, h⟩
  · split at h
    · exact .inr (.inr ⟨_, by omega, by assumption, h⟩)
    · rw [raise_eq_next] at h; exact .inr (.inl ⟨by omega, by assumption, h⟩)

/-- A move that answers a next state: what each of the six does. -/
theorem applyMove_cases {m : HostMove} {s t : State} (h : applyMove m s = .next t) :
    (m = .cycle ∧ s.fault = none ∧ cycle s = .next t) ∨
    (m = .cycle ∧ s.fault ≠ none ∧ t = s) ∨
    (∃ k n, m = .call k n ∧ s.fault = none ∧ t = (tick k s).setAgenda (List.replicate n .cycle ++ s.agenda)) ∨
    (∃ k n, m = .call k n ∧ s.fault ≠ none ∧ t = s) ∨
    (∃ levels presses, m = .poll levels presses ∧ t = poll levels presses s) ∨
    (∃ p c, m = .reset p ∧ latch p = some c ∧ t = initialise c s) ∨
    (∃ image, m = .load image ∧ imageFits s.cfg image = true ∧ t = loadImage image s) ∨
    (∃ a v, m = .write a v ∧ t = s.setMem (s.mem.write a.toNat v)) := by
  unfold applyMove at h
  split at h
  · split at h
    · cases h; simp_all
    · simp_all
  · split at h
    · cases h; simp_all
    · cases h; simp_all
  · cases h; simp
  · split at h
    · cases h; simp_all
    · cases h
  · split at h
    · cases h; simp_all
    · cases h
  · cases h; simp

/-- A run of no step. -/
theorem core_run_zero (s : State) : Host.Core.run Sys2Proof.core 0 s = .next s := rfl

/-- A run of one step and then the rest. -/
theorem core_run_succ (n : Nat) (s : State) :
    Host.Core.run Sys2Proof.core (n + 1) s =
      match step s with
      | .next t => Host.Core.run Sys2Proof.core n t
      | .fault r => .fault r
      | .refused r => .refused r := by
  cases h : step s <;> simp [Host.Core.run, Sys2Proof.core, h]

end Sys2Proof.Machine
end

