-- ==== Sys2Proof/Machine/Listing.lean ====
section
/-! DEFINITION. The assembler syntax of a listing (30_encoding R109, R110): mnemonics, operands, data words. No
instruction depends on it. -/

namespace Sys2Proof.Machine

/-- A hexadecimal digit in capitals. -/
def hexDigit (n : Nat) : String :=
  (["0", "1", "2", "3", "4", "5", "6", "7", "8", "9", "A", "B", "C", "D", "E", "F"]).getD n ""

/-- `digits` hexadecimal digits of `n`, most significant first. -/
def hex : Nat → Nat → String
  | 0, _ => ""
  | digits + 1, n => hex digits (n / 16) ++ hexDigit (n % 16)

/-- `V0` to `VF` (R109). -/
def regText (r : Reg) : String := "V" ++ hexDigit r.toNat

/-- `0x` and `digits` hexadecimal digits (R109). -/
def hexText (digits n : Nat) : String := "0x" ++ hex digits n

/-- The operands after the mnemonic, by the format of the instruction (R95, R109). -/
def operandText : Format → Fields → String
  | .z, _ => ""
  | .a, f => " " ++ hexText 3 f.nnn.toNat
  | .xi, f => " " ++ regText f.x ++ ", " ++ hexText 2 f.nn.toNat
  | .xy, f => " " ++ regText f.x ++ ", " ++ regText f.y
  | .xyn, f => " " ++ regText f.x ++ ", " ++ regText f.y ++ ", " ++ hexText 1 f.n.toNat
  | .xf, f => " " ++ regText f.x

/-- The mnemonic form of a word (its entry's mnemonic, R95, then the operands), or the data-word marker `DW 0xhhhh` if nothing decodes it (R109, R110). -/
def disassemble (w : Word) : String :=
  match lookup w with
  | some e => e.mnemonic ++ operandText e.format (fieldsOf w)
  | none => "DW " ++ hexText 4 w.toNat

/-- A line of a listing: the address, a colon, the opcode, the mnemonic form (R109). -/
def listingLine (address : Addr) (w : Word) : String :=
  hexText 3 address.toNat ++ ": " ++ hex 4 w.toNat ++ "  " ++ disassemble w

end Sys2Proof.Machine
end

