-- ==== Sys2Proof/Tests/Slice0.lean ====
section
/-! SUPPORT. Tests on fixed values, whose results come from the spec's vectors (95_test_vectors), and one witness for
the hypotheses of each statement that has some. -/

open Sys2Proof Sys2Proof.Machine

namespace Sys2Proof.Tests

/-- Whether an outcome is a next state with a property. -/
def nextIs (o : Result) (p : State → Bool) : Bool :=
  match o with
  | .next t => p t
  | .fault _ => false
  | .refused _ => false

/-- Whether the cycle that runs a word placed at `pc` completes in a state with a property. -/
def runs (w : Nat) (s : State) (p : State → Bool) : Bool := nextIs (step (s.withFetchWord 16 w)) p

/-- Whether the cycle that runs a word placed at 0x200 takes a fault of a kind, and counts nothing. -/
def faults (w : Nat) (s : State) (kind : FaultKind) : Bool :=
  runs w s (fun t => t.fault = some ⟨kind, BitVec.ofNat 16 w, 0x200⟩ && t.pc = 0x200 && t.iter = 0)

/-- The state after reset with some registers set. -/
def base (regs : List (Reg × Byte)) : State := regs.foldl (fun s p => s.setReg p.1 p.2) State.reset

/-- The default parameters with one policy for ADX. -/
def withPolicy (p : IndexPolicy) (s : State) : State := { s with cfg := { s.cfg with indexPolicy := p } }

/-- The shift quirk on. -/
def withShiftQuirk (s : State) : State := { s with cfg := { s.cfg with shiftUsesVy := true } }

/-- The dump quirk on. -/
def withDumpQuirk (s : State) : State := { s with cfg := { s.cfg with dumpIncrementsI := true } }

/-- `sp` and the slots. -/
def withStack (depth : Fin 17) (v : Word) (s : State) : State :=
  (s.setStack (Vector.replicate 16 v)).setDepth depth

/-- `I` and the bytes of memory there. -/
def withData (i : Word) (bytes : List Byte) (s : State) : State :=
  (s.setI i).setMem (s.mem.writeBytes i.toNat bytes)

/-- The pixels that are 1, row by row. -/
def lit (s : State) : List (Nat × Nat) :=
  (List.finRange 32).flatMap fun y =>
    if s.display[y] = 0 then [] else
      (List.finRange 64).filterMap fun x => if s.display.pixel y x then some (y.val, x.val) else none

/-! ## Well-formedness (30_encoding R98, R108) -/

theorem test_sys_of_cls_is_ill_formed : (Instr.sys 0x0E0).WellFormed = false := by decide
theorem test_sys_of_ret_is_ill_formed : (Instr.sys 0x0EE).WellFormed = false := by decide
theorem test_sys_beside_them_is_well_formed :
    (Instr.sys 0x0E1).WellFormed = true ∧ (Instr.sys 0x0EF).WellFormed = true := by decide

/-! ## Decoding: a word of every entry, bit by bit from 30_encoding R91 and R95 -/

theorem test_decode_cls : decodeWord 0b0000000011100000 = some .cls := by decide
theorem test_decode_ret : decodeWord 0b0000000011101110 = some .ret := by decide
theorem test_decode_jmp : decodeWord 0b0001000011100000 = some (.jmp 0x0E0) := by decide
theorem test_decode_call : decodeWord 0b0010101010111100 = some (.call 0xABC) := by decide
theorem test_decode_sei : decodeWord 0b0011101000000101 = some (.sei 0xA 0x05) := by decide
theorem test_decode_sni : decodeWord 0b0100101000000101 = some (.sni 0xA 0x05) := by decide
theorem test_decode_ser : decodeWord 0b0101101010110000 = some (.ser 0xA 0xB) := by decide
theorem test_decode_ldi : decodeWord 0b0110101000000101 = some (.ldi 0xA 0x05) := by decide
theorem test_decode_adi : decodeWord 0b0111101000000101 = some (.adi 0xA 0x05) := by decide
theorem test_decode_mov : decodeWord 0b1000101010110000 = some (.mov 0xA 0xB) := by decide
theorem test_decode_orr : decodeWord 0b1000101010110001 = some (.orr 0xA 0xB) := by decide
theorem test_decode_and : decodeWord 0b1000101010110010 = some (.and 0xA 0xB) := by decide
theorem test_decode_xor : decodeWord 0b1000101010110011 = some (.xor 0xA 0xB) := by decide
theorem test_decode_add : decodeWord 0b1000101010110100 = some (.add 0xA 0xB) := by decide
theorem test_decode_sub : decodeWord 0b1000101010110101 = some (.sub 0xA 0xB) := by decide
theorem test_decode_shr : decodeWord 0b1000101010110110 = some (.shr 0xA 0xB) := by decide
theorem test_decode_rsb : decodeWord 0b1000101010110111 = some (.rsb 0xA 0xB) := by decide
theorem test_decode_shl : decodeWord 0b1000101010111110 = some (.shl 0xA 0xB) := by decide
theorem test_decode_snr : decodeWord 0b1001101010110000 = some (.snr 0xA 0xB) := by decide
theorem test_decode_lda : decodeWord 0b1010000100100011 = some (.lda 0x123) := by decide
theorem test_decode_jpv : decodeWord 0b1011000100100011 = some (.jpv 0x123) := by decide
theorem test_decode_rnd : decodeWord 0b1100000111110000 = some (.rnd 1 0xF0) := by decide
theorem test_decode_drw : decodeWord 0b1101000100101010 = some (.drw 1 2 0xA) := by decide
theorem test_decode_skp : decodeWord 0b1110111110011110 = some (.skp 0xF) := by decide
theorem test_decode_sknp : decodeWord 0b1110010110100001 = some (.sknp 5) := by decide
theorem test_decode_gdt : decodeWord 0b1111001000000111 = some (.gdt 2) := by decide
theorem test_decode_key : decodeWord 0b1111001100001010 = some (.key 3) := by decide
theorem test_decode_sdt : decodeWord 0b1111001000010101 = some (.sdt 2) := by decide
theorem test_decode_sst : decodeWord 0b1111001000011000 = some (.sst 2) := by decide
theorem test_decode_adx : decodeWord 0b1111000100011110 = some (.adx 1) := by decide
theorem test_decode_fnt : decodeWord 0b1111001100101001 = some (.fnt 3) := by decide
theorem test_decode_bcd : decodeWord 0b1111001100110011 = some (.bcd 3) := by decide
theorem test_decode_stm : decodeWord 0b1111001001010101 = some (.stm 2) := by decide
theorem test_decode_ldm : decodeWord 0b1111000101100101 = some (.ldm 1) := by decide
theorem test_decode_sys : decodeWord 0b0000111111111111 = some (.sys 0xFFF) := by decide

/-- T410: the words beside the masks are no match. -/
theorem test_decode_no_match :
    [0x5AB1, 0x8AB8, 0x8ABD, 0x8ABF, 0x9ABF, 0xE09F, 0xE0A0, 0xE000, 0xEFFF, 0xF000, 0xF008, 0xF016, 0xF01F, 0xF030,
      0xF056, 0xF064, 0xF066, 0xF075, 0xF085, 0xFFFF].all (fun w => (decodeWord (BitVec.ofNat 16 w)).isNone) := by
  decide

/-- T400: instances of the round trip. -/
theorem test_encode :
    encode (.drw 1 2 0xA) = 0xD12A ∧ encode (.add 0xA 0xB) = 0x8AB4 ∧ encode (.key 3) = 0xF30A ∧
      encode .ret = 0x00EE := by decide

/-- T410: the byte at the lower address is the high byte. -/
theorem test_decode_bytes_big_endian : decodeBytes [0x6A, 0x05, 0x12] = .ok (.ldi 0xA 0x05, [0x12]) := by decide

theorem test_decode_bytes_reports :
    decodeBytes [0x51, 0x21] = .error (.noMatch 0x5121) ∧ decodeBytes [0x60] = .error .truncated := by decide

theorem test_decode_table_word : decodeTableWord 16 0x8124 = some (.add 1 2) := by decide

/-- R109: the example of a listing line; R110: a data word. -/
theorem test_listing :
    listingLine 0x200 0x6A05 = "0x200: 6A05  LDI VA, 0x05" ∧ disassemble 0xD12A = "DRW V1, V2, 0xA" ∧
      disassemble 0x5121 = "DW 0x5121" := by decide

/-- T402: no two mnemonics share their first three characters. -/
theorem test_mnemonic_prefixes_differ : (opcodeTable.map (fun e => e.mnemonic.toList.take 3)).Nodup := by decide

/-! ## Control transfer (T411) -/

theorem test_jmp : runs 0x1FFF State.reset (fun t => t.pc = 0x0FFF && t.iter = 1) := by decide

theorem test_call : runs 0x2300 (withStack 15 0x202 State.reset)
    (fun t => t.pc = 0x300 && t.sp = 15 && t.stack[15] = 0x202) := by decide

theorem test_call_overflows : faults 0x2300 (withStack 16 0x202 State.reset) .stackOverflow := by decide

theorem test_ret : runs 0x00EE (withStack 1 0x204 State.reset) (fun t => t.pc = 0x204 && t.sp = -1) := by decide

theorem test_ret_underflows : faults 0x00EE State.reset .stackUnderflow := by decide

theorem test_jpv : runs 0xBFFF (base [(0, 0xFF)]) (fun t => t.pc = 0x10FE) := by decide

theorem test_sei : runs 0x3A05 (base [(0xA, 5)]) (fun t => t.pc = 0x204) ∧
    runs 0x3A05 (base [(0xA, 6)]) (fun t => t.pc = 0x202) := by decide

theorem test_sni : runs 0x4A05 (base [(0xA, 6)]) (fun t => t.pc = 0x204) ∧
    runs 0x4A05 (base [(0xA, 5)]) (fun t => t.pc = 0x202) := by decide

theorem test_ser : runs 0x5120 (base [(1, 7), (2, 7)]) (fun t => t.pc = 0x204) ∧
    runs 0x5120 (base [(1, 7), (2, 8)]) (fun t => t.pc = 0x202) := by decide

theorem test_snr : runs 0x9120 (base [(1, 7), (2, 8)]) (fun t => t.pc = 0x204) ∧
    runs 0x9120 (base [(1, 7), (2, 7)]) (fun t => t.pc = 0x202) := by decide

theorem test_sys : faults 0x0123 State.reset .machineCall := by decide

theorem test_no_match_faults : faults 0x5121 State.reset .decodeFailure := by decide

/-- The fetch bounds of T411. -/
theorem test_fetch_bounds : runs 0x6001 (State.reset.setPc 0xFFE) (fun t => t.pc = 0x1000 && t.reg 0 = 1) ∧
    nextIs (step (State.reset.setPc 0x0FFF)) (fun t => t.fault = some ⟨.fetchOutOfBounds, 0, 0x0FFF⟩) := by decide

/-! ## Registers and arithmetic (T412) -/

theorem test_ldi : runs 0x6FFF State.reset (fun t => t.reg 0xF = 0xFF && t.pc = 0x202) := by decide

theorem test_adi : runs 0x7A01 (base [(0xA, 0xFF), (0xF, 1)]) (fun t => t.reg 0xA = 0 && t.reg 0xF = 1) := by decide

theorem test_mov : runs 0x8120 (base [(2, 0x7C)]) (fun t => t.reg 1 = 0x7C && t.reg 2 = 0x7C) := by decide

theorem test_orr : runs 0x8121 (base [(1, 0xF0), (2, 0x0F), (0xF, 1)]) (fun t => t.reg 1 = 0xFF && t.reg 0xF = 1) := by
  decide

theorem test_and : runs 0x8122 (base [(1, 0xF3), (2, 0x3C), (0xF, 1)]) (fun t => t.reg 1 = 0x30 && t.reg 0xF = 1) := by
  decide

theorem test_xor : runs 0x8123 (base [(1, 0xFF), (2, 0x0F), (0xF, 1)]) (fun t => t.reg 1 = 0xF0 && t.reg 0xF = 1) := by
  decide

theorem test_add : runs 0x8124 (base [(1, 0xC8), (2, 0x64)]) (fun t => t.reg 1 = 0x2C && t.reg 0xF = 1) := by decide

theorem test_add_to_vf : runs 0x8F14 (base [(0xF, 0xF0), (1, 0x20)]) (fun t => t.reg 0xF = 1) ∧
    runs 0x81F4 (base [(1, 0xFF), (0xF, 1)]) (fun t => t.reg 1 = 0 && t.reg 0xF = 1) := by decide

theorem test_sub : runs 0x8125 (base [(1, 0x05), (2, 0x0A), (0xF, 1)]) (fun t => t.reg 1 = 0xFB && t.reg 0xF = 0) := by
  decide

theorem test_sub_equal : runs 0x8125 (base [(1, 7), (2, 7)]) (fun t => t.reg 1 = 0 && t.reg 0xF = 1) := by decide

theorem test_rsb : runs 0x8127 (base [(1, 0x0A), (2, 0x05), (0xF, 1)]) (fun t => t.reg 1 = 0xFB && t.reg 0xF = 0) := by
  decide

theorem test_rsb_to_vf : runs 0x8F17 (base [(0xF, 9), (1, 3)]) (fun t => t.reg 0xF = 0 && t.reg 1 = 3) := by decide

theorem test_shr : runs 0x8126 (base [(1, 0x05), (2, 0xF0)]) (fun t => t.reg 1 = 0x02 && t.reg 0xF = 1) := by decide

theorem test_shr_of_vy : runs 0x81F6 (withShiftQuirk (base [(1, 0x10), (0xF, 7)]))
    (fun t => t.reg 1 = 3 && t.reg 0xF = 1) := by decide

theorem test_shl : runs 0x812E (base [(1, 0x81), (2, 0x40)]) (fun t => t.reg 1 = 0x02 && t.reg 0xF = 1) := by decide

theorem test_shl_of_vy : runs 0x812E (withShiftQuirk (base [(1, 0x81), (2, 0x40), (0xF, 1)]))
    (fun t => t.reg 1 = 0x80 && t.reg 0xF = 0) := by decide

theorem test_rnd : nextIs (rndWith 0xA7 1 0x0F State.reset) (fun t => t.reg 1 = 0x07 && t.draws = 1) := by decide

/-! ## Display (T413) -/

/-- The source's property 4, first half: a row of eight at the last corner. -/
theorem test_drw_wraps : runs 0xD011 (withData 0x300 [0xFF] (base [(0, 63), (1, 31)]))
    (fun t => lit t = [(31, 0), (31, 1), (31, 2), (31, 3), (31, 4), (31, 5), (31, 6), (31, 63)] && t.reg 0xF = 0) := by
  decide

theorem test_drw_collides : runs 0xD011
    ((withData 0x300 [0xC0] State.reset).setDisplay ((State.reset.display.flip 0 1).flip 0 2))
    (fun t => lit t = [(0, 0), (0, 2)] && t.reg 0xF = 1) := by decide

theorem test_drw_out_of_bounds : faults 0xD012 (State.reset.setI 0xFFF) .memoryOutOfBounds := by decide

theorem test_cls : runs 0x00E0 ((base [(0xF, 1)]).setDisplay ((State.reset.display.flip 0 0).flip 31 63))
    (fun t => lit t = [] && t.reg 0xF = 1) := by decide

/-! ## Keypad and timers (T414) -/

theorem test_skp : runs 0xE59E ((base [(5, 0x0A)]).setKey 0x0400) (fun t => t.pc = 0x204) ∧
    runs 0xE59E ((base [(5, 0x0A)]).setJust 0x0400) (fun t => t.pc = 0x202) := by decide

theorem test_skp_out_of_range : faults 0xE59E ((base [(5, 0x1A)]).setKey 0x0400) .keyIndexOutOfRange := by decide

theorem test_sknp : runs 0xE5A1 (base [(5, 0x0A)]) (fun t => t.pc = 0x204) ∧
    runs 0xE5A1 ((base [(5, 0x0A)]).setKey 0x0400) (fun t => t.pc = 0x202) := by decide

theorem test_sknp_out_of_range : faults 0xE5A1 (base [(5, 0xFF)]) .keyIndexOutOfRange := by decide

theorem test_key : runs 0xF30A ((State.reset.setKey 0x0280).setJust 0x0280) (fun t => t.pc = 0x202 && t.reg 3 = 7) := by
  decide

theorem test_key_waits : runs 0xF30A ((base [(3, 0x55)]).setKey 0x0010) (fun t => t.pc = 0x200 && t.reg 3 = 0x55) := by
  decide

theorem test_gdt : runs 0xF207 (State.reset.setDt 60) (fun t => t.reg 2 = 0x3C && t.dt = 60) := by decide

theorem test_sdt : runs 0xF215 (base [(2, 0x3C)]) (fun t => t.dt = 60 && t.st = 0) := by decide

theorem test_sst : runs 0xF218 (base [(2, 0x05)]) (fun t => t.st = 5 && t.dt = 0 && beep t) := by decide

theorem test_tick : (tick 3 ((State.reset.setDt 10).setSt 2)).dt = 7 ∧
    (tick 3 ((State.reset.setDt 10).setSt 2)).st = 0 := by decide

/-! ## Index register and memory (T415) -/

theorem test_lda : runs 0xA2F0 State.reset (fun t => t.i = 0x2F0) := by decide

theorem test_adx : runs 0xF11E ((base [(1, 0), (0xF, 7)]).setI 0x1000) (fun t => t.i = 0 && t.reg 0xF = 7) ∧
    runs 0xF11E (withPolicy .vfFlush ((base [(1, 5), (0xF, 7)]).setI 0xFFE)) (fun t => t.i = 3 && t.reg 0xF = 0) := by
  decide

theorem test_adx_overflow_flag :
    runs 0xF11E (withPolicy .overflowFlag ((base [(1, 0), (0xF, 7)]).setI 0x0FFF))
      (fun t => t.i = 0xFFF && t.reg 0xF = 0) ∧
    runs 0xFF1E (withPolicy .overflowFlag ((base [(0xF, 0x20)]).setI 0xFF0))
      (fun t => t.i = 0x10 && t.reg 0xF = 1) := by decide

theorem test_fnt : runs 0xF329 (base [(3, 0x0F)]) (fun t => t.i = 0x9B) := by decide

/-- F329 with V3 = 0x10: "a model refuses the step". -/
theorem test_fnt_refused : execFnt 3 (base [(3, 0x10)]) = .refused (.fontDigitUnspecified 0x10) := rfl

theorem test_bcd : runs 0xF333 ((base [(3, 0x9C)]).setI 0x300) (fun t => t.mem.readBytes 0x300 3 = [1, 5, 6]) := by
  decide

theorem test_bcd_out_of_bounds : faults 0xF333 ((base [(3, 0xFF)]).setI 0xFFE) .memoryOutOfBounds := by decide

theorem test_stm : runs 0xF255 (withDumpQuirk ((base [(0, 0x11), (1, 0x22), (2, 0x33), (3, 0x44)]).setI 0x400))
    (fun t => t.mem.readBytes 0x400 4 = [0x11, 0x22, 0x33, 0] && t.i = 0x403) := by decide

theorem test_stm_out_of_bounds : faults 0xFF55 (State.reset.setI 0xFF1) .memoryOutOfBounds := by decide

theorem test_ldm : runs 0xF165 (withData 0x400 [0xAA, 0xBB, 0xCC] (base [(2, 0x77)]))
    (fun t => t.reg 0 = 0xAA && t.reg 1 = 0xBB && t.reg 2 = 0x77 && t.i = 0x400) := by decide

theorem test_ldm_out_of_bounds : faults 0xF165 (State.reset.setI 0xFFF) .memoryOutOfBounds := by decide

/-! ## Reset, load and the host (T430) -/

theorem test_reset_font : State.reset.mem.readBytes 0x04F 6 = [0, 0xF0, 0x90, 0x90, 0x90, 0xF0] ∧
    State.reset.mem.readBytes 0x09B 6 = [0xF0, 0x80, 0xF0, 0x80, 0x80, 0] := by decide

theorem test_reset_memory_wf : State.reset.mem.wf := by decide

/-- T430: with no program loaded the first step takes MachineCall. -/
theorem test_step_from_reset : nextIs (step State.reset) (fun t => t.fault = some ⟨.machineCall, 0, 0x200⟩) := by decide

theorem test_image_sizes : imageFits Config.default (List.replicate 3584 0) = true ∧
    imageFits Config.default (List.replicate 3586 0) = false ∧ imageFits Config.default [0, 0, 0] = false ∧
    imageFits Config.default [] = true := by
  simp only [imageFits, List.length_replicate]
  decide

theorem test_both_index_quirks_refused :
    latch { quirkIndexOverflowFlag := true, quirkIndexVfFlush := true } = none := by decide

/-- The reset of the default parameters leaves the memory that `State.reset` has. -/
theorem test_reset_memory_is_unlisted : resetMemory Config.default = [] := by decide +kernel

/-- T406: three ticks before the cycles of the call. -/
theorem test_call_ticks_first :
    nextIs (step (((State.reset.setDt 10).setSt 2).setAgenda [.call 3 2]))
      (fun t => t.dt = 7 && t.st = 0 && t.agenda = [.cycle, .cycle]) := by decide

/-! ## Witnesses: a state and operands that meet the hypotheses of each statement -/

/-- A state whose next step runs `LDI V0, 0x01` from an address. -/
def loadsOne (pc : Word) : State := (State.reset.setPc pc).setMem (State.reset.mem.writeBytes pc.toNat [0x60, 0x01])

/-- A halted state. -/
def halted : State := State.reset.setFault (some ⟨.machineCall, 0x0000, 0x200⟩)

theorem witness_round_trip : (Instr.sys 0xFFF).WellFormed = true ∧ (Instr.drw 0xF 0xF 0xF).WellFormed = true := by
  decide

theorem witness_encode_functions : (opcodeTable.head?.map (·.id)) = some 1 ∧
    (lookup 0xD12A).map (·.id) = some 23 ∧ (lookup 0x0123).map (·.id) = some 35 ∧
    (0x202 : Nat) ≠ 0x200 ∧ (0x202 : Nat) ≠ 0x200 + 1 := by decide

theorem witness_decoded_word : decodeWord 0x0000 = some (.sys 0) ∧ decodeWord 0xFF65 = some (.ldm 0xF) := by decide

theorem witness_overlap : (opcodeTable.filter (fun e => e.matches 0x00E0)).map (·.id) = [1, 35] ∧
    (opcodeTable.filter (fun e => e.matches 0x00EE)).map (·.id) = [2, 35] := by decide

theorem witness_step_runs : (loadsOne 0xFFE).fault = none ∧ (loadsOne 0xFFE).pc.toNat = 4094 ∧
    decodeWord (loadsOne 0xFFE).fetchWord = some (.ldi 0 1) ∧ (loadsOne 0xFFE).agenda = [] ∧
    decodeWord ((loadsOne 0xFFE).setAgenda [.cycle]).fetchWord = some (.ldi 0 1) := by decide

theorem witness_placed_word : decodeTableWord 16 0x6001 = some (.ldi 0 1) := by decide

theorem witness_fetch : (loadsOne 0xFFE).pc.toNat ≤ 4094 ∧ State.reset.setIter 1 ≠ State.reset ∧
    (State.reset.setIter 1).pc = State.reset.pc ∧ Part.memory.Same State.reset (State.reset.setIter 1) :=
  ⟨by decide, by decide, rfl, fun _ => rfl⟩

/-- A cycle that is next on its own, and one of a call with a move after it. -/
theorem witness_cycle_is_next : CycleIsNext State.reset [] ∧
    CycleIsNext (State.reset.setAgenda [.cycle, .poll 0 0]) [.poll 0 0] := ⟨.inl ⟨rfl, rfl⟩, .inr rfl⟩

theorem witness_fetch_above : CycleIsNext (State.reset.setPc 4095) [] ∧
    CycleIsNext ((State.reset.setPc 4095).setAgenda [.cycle]) [] ∧ (State.reset.setPc 4095).fault = none ∧
    4094 < (State.reset.setPc 4095).pc.toNat := ⟨.inl ⟨rfl, rfl⟩, .inr rfl, by decide⟩

theorem witness_illegal_word : CycleIsNext (State.reset.withFetchWord 16 0x5121) [] ∧
    CycleIsNext ((State.reset.withFetchWord 16 0x5121).setAgenda [.cycle]) [] ∧
    (State.reset.withFetchWord 16 0x5121).fault = none ∧ (State.reset.withFetchWord 16 0x5121).pc.toNat ≤ 4094 ∧
    decodeWord (State.reset.withFetchWord 16 0x5121).fetchWord = none := ⟨.inl ⟨rfl, rfl⟩, .inr rfl, by decide⟩

/-- A cycle that faults at the fetch, one that faults later, and one that completes; and such cycles of a call. -/
theorem witness_cycles :
    (∃ t, step (State.reset.setPc 4095) = .next t ∧ t.fault = some ⟨.fetchOutOfBounds, 0, 4095⟩) ∧
    (∃ t, step State.reset = .next t ∧ t.fault = some ⟨.machineCall, 0, 0x200⟩) ∧
    (∃ t, step (loadsOne 0x200) = .next t ∧ t.fault = none) ∧
    (∃ t, step ((State.reset.setPc 4095).setAgenda [.cycle]) = .next t ∧
      t.fault = some ⟨.fetchOutOfBounds, 0, 4095⟩) ∧
    (∃ t, step (State.reset.setAgenda [.cycle, .cycle]) = .next t ∧ t.fault = some ⟨.machineCall, 0, 0x200⟩) ∧
    (∃ t, step ((loadsOne 0x200).setAgenda [.cycle]) = .next t ∧ t.fault = none) ∧
    (State.reset.fault = none ∧ (loadsOne 0x200).fault = none) :=
  ⟨⟨_, rfl, by decide⟩, ⟨_, rfl, by decide⟩, ⟨_, rfl, by decide⟩, ⟨_, rfl, by decide⟩, ⟨_, rfl, by decide⟩,
    ⟨_, rfl, by decide⟩, rfl, rfl⟩

/-- A halted engine, with no move, with a cycle, with a call, and with a poll to come. -/
theorem witness_halted : halted.fault = some ⟨.machineCall, 0x0000, 0x200⟩ ∧ halted.agenda = [] ∧
    (halted.setAgenda [.cycle]).agenda = [.cycle] ∧ (halted.setAgenda [.call 0 1]).agenda = [.call 0 1] ∧
    ∃ t, step (halted.setAgenda [.poll 1 0]) = .next t ∧ t.key = 1 := ⟨rfl, rfl, rfl, rfl, _, rfl, rfl⟩

/-- An instruction that answers a next state, a register and parts that it does not write. -/
theorem witness_writers : (∃ t, exec (.ldi 0 1) State.reset = .next t) ∧
    writesReg State.reset.cfg 1 (.ldi 0 1) = false ∧ writesReg State.reset.cfg 3 (.ldm 2) = false ∧
    writesPart State.reset.cfg .memory (.ldi 0 1) = false ∧ writesPart State.reset.cfg .index (.stm 0) = false :=
  ⟨⟨_, rfl⟩, by decide⟩

theorem witness_jmp_to_itself : State.reset.pc.toNat = (0x200 : Addr).toNat := by decide

theorem witness_call : (withStack 15 0 State.reset).sp = 14 ∧ (withStack 16 0 State.reset).sp = 15 := by decide

theorem witness_ret : (withStack 1 0 State.reset).sp = (0 : Fin 16).val ∧
    (withStack 16 0 State.reset).sp = (15 : Fin 16).val ∧ State.reset.sp = -1 := by decide

/-- A state that a subroutine may come to: the stack as CALL left it, `pc` at the RET, a register changed. -/
theorem witness_call_then_ret : (withStack 15 0 State.reset).sp ≠ 15 ∧
    ∃ t, exec (.call 0x300) (withStack 15 0 State.reset) = .next t ∧
      ((t.setPc 0x310).setReg 0 7).stack = t.stack ∧ ((t.setPc 0x310).setReg 0 7).depth = t.depth :=
  ⟨by decide, _, rfl, rfl, rfl⟩

theorem witness_sys : (0x0E1 : Addr) ≠ 0x0E0 ∧ (0x0E1 : Addr) ≠ 0x0EE ∧ (0x0EF : Addr) ≠ 0x0E0 ∧
    (0x0EF : Addr) ≠ 0x0EE := by decide

/-- A destination that is not VF, one that is, and registers that are neither. -/
theorem witness_flag_writers : (0xE : Reg) ≠ vf ∧ (0xF : Reg) = vf ∧ (0 : Reg) ≠ 0xE ∧ (0 : Reg) ≠ vf := by decide

/-- The operand of a shift without and with the quirk. -/
theorem witness_shift_operand :
    (0x81 : Byte) = (if (base [(1, 0x81), (2, 0x40)]).cfg.shiftUsesVy then (base [(1, 0x81), (2, 0x40)]).reg 2
      else (base [(1, 0x81), (2, 0x40)]).reg 1) ∧
    (0x40 : Byte) = (if (withShiftQuirk (base [(1, 0x81), (2, 0x40)])).cfg.shiftUsesVy
      then (base [(1, 0x81), (2, 0x40)]).reg 2 else (base [(1, 0x81), (2, 0x40)]).reg 1) := by decide

/-- A sprite of no rows, one that ends at the last byte, and one that does not fit. -/
theorem witness_drw : ((0 : Nibble) = 0 ∧ dataAddress (State.reset.setI 0x1000) = 0x1000) ∧
    dataAddress (State.reset.setI 0xFFF) + (1 : Nibble).toNat - 1 ≤ 0xFFF ∧
    ((2 : Nibble) ≠ 0 ∧ 0xFFF < dataAddress (State.reset.setI 0xFFF) + (2 : Nibble).toNat - 1) := by decide

/-- Two draws of one sprite. -/
theorem witness_draw_twice : (List.replicate 15 (0xFF : Byte)).length ≤ 15 ∧ (0 : Reg) ≠ vf ∧ (1 : Reg) ≠ vf ∧
    ∃ t u, exec (.drw 0 1 1) State.reset = .next t ∧ exec (.drw 0 1 1) t = .next u :=
  ⟨by decide, by decide, by decide, _, _, rfl, rfl⟩

theorem witness_key_number : ((base [(5, 15)]).reg 5).toNat = 15 ∧ ((base [(5, 16)]).reg 5).toNat = 16 := by decide

/-- A press of the last key alone, and no press. -/
theorem witness_key : (15 < 16 ∧ (State.reset.setJust 0x8000).just.getLsbD 15 = true ∧
    ∀ j < 15, (State.reset.setJust 0x8000).just.getLsbD j = false) ∧
    ∀ k < 16, State.reset.just.getLsbD k = false := by decide

theorem witness_font_digit : ((base [(3, 15)]).reg 3).toNat ≤ 15 ∧ 15 < ((base [(3, 16)]).reg 3).toNat := by decide

/-- The last address from which BCD fits, and the first from which it does not. -/
theorem witness_bcd : dataAddress (State.reset.setI 0xFFD) + 2 ≤ 0xFFF ∧
    0xFFF < dataAddress (State.reset.setI 0xFFE) + 2 := by decide

/-- The last address from which all sixteen registers fit, and the first from which they do not. -/
theorem witness_register_range : dataAddress (State.reset.setI 0xFF0) + (0xF : Reg).toNat ≤ 0xFFF ∧
    dataAddress (State.reset.setI 0xFFF) + (0 : Reg).toNat ≤ 0xFFF ∧ (0 : Reg).toNat ≤ (0xF : Reg).toNat ∧
    0xFFF < dataAddress (State.reset.setI 0xFF1) + (0xF : Reg).toNat := by decide

/-- STM V1 over the word that the next cycle fetches. -/
theorem witness_stored_code : ∃ t, exec (.stm 1) (State.reset.setI 0x202) = .next t ∧
    dataAddress (State.reset.setI 0x202) + (1 : Reg).toNat ≤ 0xFFF ∧ (1 : Reg).toNat = (0 : Reg).toNat + 1 ∧
    (1 : Reg).toNat ≤ (1 : Reg).toNat ∧ t.pc.toNat = dataAddress (State.reset.setI 0x202) + (0 : Reg).toNat :=
  ⟨_, rfl, by decide⟩

/-- An engine that is not halted, with timers that run out within the ticks of a call and with ones that do not. -/
theorem witness_ticks : ((State.reset.setDt 255).setSt 1).fault = none ∧
    (tick 1 ((State.reset.setDt 255).setSt 1)).dt = 254 ∧ (tick 2 ((State.reset.setDt 255).setSt 1)).st = 0 ∧
    beep ((State.reset.setDt 255).setSt 1) = true ∧ beep (tick 1 ((State.reset.setDt 255).setSt 1)) = false := by
  decide

/-- A call of one cycle that completes, with a move after it. -/
theorem witness_call_of_cycles : ((loadsOne 0x200).setAgenda [.call 3 1, .poll 0 0]).fault = none ∧
    ∃ t, Host.Core.run Sys2Proof.core (1 + 1) ((loadsOne 0x200).setAgenda [.call 3 1, .poll 0 0]) = .next t ∧
      t.fault = none := ⟨by decide, _, rfl, by decide⟩

theorem witness_poll : (State.reset.setAgenda [.poll 0x8001 0x0002]).agenda = [.poll 0x8001 0x0002] ∧
    (15 < 16 ∧ (0x8001 : BitVec 16).getLsbD 15 = true) := by decide

/-- Legal inputs with the font as high as it fits; a font one byte too high; both add-to-index quirks. -/
theorem witness_host_reset :
    (let p : ResetInputs := { fontOrigin := 0xFB0, quirkIndexVfFlush := true }
     (State.reset.setAgenda [.reset p]).agenda = [.reset p] ∧ p.fontOrigin.toNat + 79 ≤ 0xFFF ∧
       ¬ (p.quirkIndexOverflowFlag = true ∧ p.quirkIndexVfFlush = true)) ∧
    (let p : ResetInputs := { fontOrigin := 0xFB1 }
     0xFFF < p.fontOrigin.toNat + 79) ∧
    (let p : ResetInputs := { quirkIndexOverflowFlag := true, quirkIndexVfFlush := true }
     p.quirkIndexOverflowFlag = true ∧ p.quirkIndexVfFlush = true) :=
  ⟨⟨rfl, by decide, by decide⟩, by decide, by decide⟩

/-- The longest image that fits, one of odd length, one too long, and a write at the last address. -/
theorem witness_host_load :
    (List.replicate 3584 (0 : Byte)).length % 2 = 0 ∧
    (List.replicate 3584 (0 : Byte)).length ≤ 4096 - State.reset.cfg.programOrigin.toNat ∧
    (List.replicate 3 (0 : Byte)).length % 2 = 1 ∧
    4096 - State.reset.cfg.programOrigin.toNat < (List.replicate 3586 (0 : Byte)).length ∧
    (State.reset.setAgenda [.load [0x12, 0x00]]).agenda = [.load [0x12, 0x00]] ∧
    (State.reset.setAgenda [.write 0xFFF 1]).agenda = [.write 0xFFF 1] := by
  simp only [List.length_replicate]
  decide

theorem witness_invariant : State.reset.Inv ∧ ∃ t, step (loadsOne 0x200) = .next t ∧ t.pc = 0x202 :=
  ⟨by decide, _, rfl, by decide⟩

theorem witness_step_of_invariant : (loadsOne 0x200).Inv := by decide

/-- Reset, and the state after a load from outside. -/
theorem witness_reachable : (Reachable (State.reset.setAgenda []) ∧ (State.reset.setAgenda []).fault = none) ∧
    ∃ t, Reachable t ∧ t.fault = none ∧ t.mem.read 0x200 = 0x12 :=
  ⟨⟨.reset [], rfl⟩, loadImage [0x12, 0x00] State.reset, .step (.reset [.load [0x12, 0x00]]) rfl, rfl, by decide⟩

end Sys2Proof.Tests
end

section
/-! PROOFS. The fetch reads a big-endian word from the one memory (20_memory R61, R62). -/

namespace Sys2Proof.Machine

/-- R61 as arithmetic: appending the low byte is shifting the high byte and or-ing. -/
theorem wordOfBytes_eq_shiftLeft_or (hi lo : Byte) :
    wordOfBytes hi lo = (hi.setWidth 16 <<< 8) ||| lo.setWidth 16 := by
  unfold wordOfBytes
  rw [BitVec.append_def, BitVec.shiftLeftZeroExtend_eq, BitVec.setWidth'_eq]

/-- R62: no instruction buffer and no prefetch, so `pc` and the bytes of memory determine the fetch. -/
theorem State.fetchWord_congr {s t : State} (hpc : t.pc = s.pc) (hmem : Part.memory.Same s t) :
    t.fetchWord = s.fetchWord := by
  have hread : ∀ a, t.mem.read a = s.mem.read a := hmem
  simp only [State.fetchWord, hpc, hread]

/-- Settles O9: the fetched word is the two bytes at `pc` as a big-endian word, and reads nothing else. -/
theorem fetchIsTheBigEndianWordAtPc : Obligations.FetchIsTheBigEndianWordAtPc :=
  ⟨fun _ _ => wordOfBytes_eq_shiftLeft_or _ _, fun _ _ => State.fetchWord_congr⟩

end Sys2Proof.Machine
end

section
/-! PROOFS. Decoding a word of the opcode table from the entry it matches (30_encoding R94, R96). -/

namespace Sys2Proof

/-- Two entries that match one word agree where both masks look. -/
theorem Entry.patterns_agree_of_matches {e e' : Entry} {w : Word} (h : e.matches w = true) (h' : e'.matches w = true) :
    e.pattern &&& e'.mask = e'.pattern &&& e.mask := by
  have hw : w &&& e.mask = e.pattern := eq_of_beq h
  have hw' : w &&& e'.mask = e'.pattern := eq_of_beq h'
  rw [← hw, ← hw', BitVec.and_assoc, BitVec.and_assoc, BitVec.and_comm e.mask]

/-- R96: of any two entries before the catch-all SYS, the patterns differ where both masks look. -/
theorem opcodeTable_patterns_differ :
    opcodeTable.dropLast.Pairwise (fun e e' => e.pattern &&& e'.mask ≠ e'.pattern &&& e.mask) := by
  decide

/-- R95: SYS is the last entry of the table. -/
theorem opcodeTable_eq_dropLast_append :
    opcodeTable = opcodeTable.dropLast ++ [⟨35, 0x0000, 0xF000, .a, "SYS", fun f => .sys f.nnn⟩] := rfl

/-- R94: an entry before the catch-all that matches a word is the one the lookup finds. -/
theorem lookup_eq_some_of_matches {w : Word} {e : Entry} (he : e ∈ opcodeTable.dropLast) (hm : e.matches w = true) :
    lookup w = some e := by
  obtain ⟨k, hk, rfl⟩ := List.getElem_of_mem he
  have hfirst : opcodeTable.dropLast.find? (fun e => e.matches w) = some opcodeTable.dropLast[k] := by
    refine List.find?_eq_some_iff_getElem.mpr ⟨hm, k, hk, rfl, fun j hj => ?_⟩
    have hne := List.pairwise_iff_getElem.mp opcodeTable_patterns_differ j k (hj.trans hk) hk hj
    rw [Bool.not_eq_true', ← Bool.not_eq_true]
    exact fun hmatch => hne (Entry.patterns_agree_of_matches hmatch hm)
  exact (List.dropLast_prefix _).find?_eq_some hfirst

/-- R95, R108: an instruction other than SYS whose word is in the opcode table is what its word decodes to. -/
theorem decodeWord_encode_of_inTable {i : Instr} (h : Laws.InTable.Statement i) (hsys : ∀ nnn, i ≠ .sys nnn) :
    decodeWord (encode i) = some i := by
  obtain ⟨e, he, hm, hmake⟩ := h
  rw [opcodeTable_eq_dropLast_append, List.mem_append, List.mem_singleton] at he
  obtain he | rfl := he
  · rw [decodeWord, lookup_eq_some_of_matches he hm, Option.map_some, hmake]
  · exact absurd hmake.symm (hsys _)

/-! ## A word written as its digits is the pattern with the fields placed (R91, R108) -/

/-- Format A. -/
theorem append_eq_or_placeA {d : BitVec 4} {p : Word} (hp : d.setWidth 16 <<< 12 = p) (nnn : Addr) :
    d ++ nnn = p ||| placeA nnn := by
  rw [← BitVec.setWidth_eq (d ++ nnn), BitVec.setWidth_append_eq_shiftLeft_setWidth_or, ← hp, placeA]

/-- Format XI. -/
theorem append_eq_or_placeXI {d : BitVec 4} {p : Word} (hp : d.setWidth 16 <<< 12 = p) (x : Reg) (nn : Byte) :
    d ++ x ++ nn = p ||| placeXI x nn := by
  rw [← BitVec.setWidth_eq (d ++ x ++ nn), BitVec.setWidth_append_append_eq_shiftLeft_setWidth_or, ← hp,
    placeXI, placeXF, BitVec.or_assoc]

/-- Format XY, whose last digit `n` belongs to the pattern. -/
theorem append_eq_or_placeXY {d n : BitVec 4} {p : Word} (hp : d.setWidth 16 <<< 12 ||| n.setWidth 16 = p) (x y : Reg) :
    d ++ x ++ y ++ n = p ||| placeXY x y := by
  rw [← BitVec.setWidth_eq (d ++ x ++ y ++ n), BitVec.setWidth_append_append_append_eq_shiftLeft_setWidth_or, ← hp,
    placeXY, placeXF]
  ac_rfl

end Sys2Proof
end

section
/-! PROOFS. JMP and the skips on equality (40_cycle_control R135, R137, R139, R142). -/

namespace Sys2Proof.Machine

/-! ## A cycle that writes `pc` alone -/

/-- The advance is overwritten by a jump. -/
@[simp] theorem State.advance_setPc (v : Word) (s : State) : s.advance.setPc v = s.setPc v := rfl

/-- Writing `pc` with what it holds is doing nothing. -/
@[simp] theorem State.setPc_pc_self (s : State) : s.setPc s.pc = s := rfl

/-- R142: a skip goes two words on, else one. -/
theorem State.advance_skipIf (c : Bool) (s : State) :
    s.advance.skipIf c = s.setPc (if c then s.pc + 4 else s.pc + 2) := by
  rw [State.skipIf_eq, State.advance_setPc]
  cases c with
  | false => rfl
  | true => simp [BitVec.add_assoc]

/-- A cycle that completes after a write of `pc` has the frame in which no part is changed. -/
theorem complete_setPc_frame (v : Word) (s : State) :
    ∃ t, complete (s.setPc v) = .next t ∧ t.pc = v ∧ Frame [] s t := by
  refine ⟨_, complete_eq _, rfl, fun p _ => ?_, ⟨rfl, rfl, rfl, rfl⟩, rfl, rfl⟩
  cases p <;> simp [Part.Same]

/-- A skip completes, two words on or one, and changes nothing else. -/
theorem complete_skipIf_frame (c : Bool) (s : State) :
    ∃ t, complete (s.advance.skipIf c) = .next t ∧ t.pc = (if c then s.pc + 4 else s.pc + 2) ∧ Frame [] s t := by
  rw [State.advance_skipIf]
  exact complete_setPc_frame _ s

/-! ## The instructions -/

/-- R93: an absolute address has the value of its field. -/
@[simp] theorem absolute_toNat (nnn : Addr) : (absolute nnn).toNat = nnn.toNat :=
  BitVec.toNat_setWidth_of_le (by decide)

/-- R135: what JMP does to the state. -/
theorem exec_jmp (nnn : Addr) (s : State) : exec (.jmp nnn) s = complete (s.setPc (absolute nnn)) := rfl

/-- R135: "`JMP` to its own address leaves the architectural state unchanged except `iter`". -/
theorem exec_jmp_self {nnn : Addr} {s : State} (h : s.pc.toNat = nnn.toNat) :
    exec (.jmp nnn) s = .next (s.setIter (s.iter + 1)) := by
  have hpc : absolute nnn = s.pc := BitVec.eq_of_toNat_eq ((absolute_toNat nnn).trans h.symm)
  rw [exec_jmp, hpc, State.setPc_pc_self, complete_eq]

/-- R137: what SEI does to the state. -/
theorem exec_sei (x : Reg) (nn : Byte) (s : State) :
    exec (.sei x nn) s = complete (s.advance.skipIf (s.reg x == nn)) := rfl

/-- R139: what SER does to the state. -/
theorem exec_ser (x y : Reg) (s : State) :
    exec (.ser x y) s = complete (s.advance.skipIf (s.reg x == s.reg y)) := rfl

/-- R135: the word 1NNN. -/
theorem decodeWord_jmp (nnn : Addr) : decodeWord (0x1#4 ++ nnn) = some (.jmp nnn) := by
  have hw : 0x1#4 ++ nnn = encode (.jmp nnn) := append_eq_or_placeA (by decide) nnn
  rw [hw]
  exact decodeWord_encode_of_inTable (Laws.InTable.jmp nnn) (fun _ => Instr.noConfusion)

/-- R137: the word 3XNN. -/
theorem decodeWord_sei (x : Reg) (nn : Byte) : decodeWord (0x3#4 ++ x ++ nn) = some (.sei x nn) := by
  have hw : 0x3#4 ++ x ++ nn = encode (.sei x nn) := append_eq_or_placeXI (by decide) x nn
  rw [hw]
  exact decodeWord_encode_of_inTable (Laws.InTable.sei x nn) (fun _ => Instr.noConfusion)

/-- R139: the word 5XY0. -/
theorem decodeWord_ser (x y : Reg) : decodeWord (0x5#4 ++ x ++ y ++ 0x0#4) = some (.ser x y) := by
  have hw : 0x5#4 ++ x ++ y ++ 0x0#4 = encode (.ser x y) := append_eq_or_placeXY (by decide) x y
  rw [hw]
  exact decodeWord_encode_of_inTable (Laws.InTable.ser x y) (fun _ => Instr.noConfusion)

/-- Settles O18: a jump writes `pc` alone, which changes nothing when the target is its own address. -/
theorem jmpSetsPc : Obligations.JmpSetsPc := by
  intro nnn s
  refine ⟨decodeWord_jmp nnn, ?_, exec_jmp_self⟩
  obtain ⟨t, hexec, hpc, hframe⟩ := complete_setPc_frame (absolute nnn) s
  exact ⟨t, hexec, by rw [hpc, absolute_toNat], hframe⟩

/-- Settles O23: SEI is a skip on the comparison of a register with the immediate. -/
theorem seiSkipsIfEqual : Obligations.SeiSkipsIfEqual := by
  intro x nn s
  refine ⟨decodeWord_sei x nn, ?_⟩
  simpa only [exec_sei, beq_iff_eq] using complete_skipIf_frame (s.reg x == nn) s

/-- Settles O24: SER is a skip on the comparison of two registers. -/
theorem serSkipsIfEqual : Obligations.SerSkipsIfEqual := by
  intro x y s
  refine ⟨decodeWord_ser x y, ?_⟩
  simpa only [exec_ser, beq_iff_eq] using complete_skipIf_frame (s.reg x == s.reg y) s

end Sys2Proof.Machine
end

section
/-! PROOFS. LDI, ADI, MOV and the bitwise instructions: a register is written, and no flag (41_alu R171 to R177). -/

namespace Sys2Proof.Machine

/-! ## A cycle that writes one register -/

/-- R171: a cycle that completes after the advance and a write of one register changes that register alone. -/
theorem complete_setReg_frame (x : Reg) (v : Byte) (s : State) :
    ∃ t, complete (s.advance.setReg x v) = .next t ∧ (∀ r, t.reg r = if r = x then v else s.reg r) ∧
      t.pc = s.pc + 2 ∧ Frame [.registers] s t := by
  refine ⟨_, complete_eq _, fun r => by simp, rfl, fun p hp => ?_, ⟨rfl, rfl, rfl, rfl⟩, rfl, rfl⟩
  cases p with
  | registers => exact absurd (List.mem_singleton_self _) hp
  | _ => simp [Part.Same]

/-- The same, with the destination apart from the registers that are kept. -/
theorem complete_setReg_dest_frame (x : Reg) (v : Byte) (s : State) :
    ∃ t, complete (s.advance.setReg x v) = .next t ∧ t.reg x = v ∧ (∀ r, r ≠ x → t.reg r = s.reg r) ∧
      t.pc = s.pc + 2 ∧ Frame [.registers] s t := by
  obtain ⟨t, hexec, hreg, hpc, hframe⟩ := complete_setReg_frame x v s
  exact ⟨t, hexec, by rw [hreg, if_pos rfl], fun r hr => by rw [hreg, if_neg hr], hpc, hframe⟩

/-- R175 to R177: writing an operation on bytes that acts as `g` on each bit. -/
theorem complete_setReg_bitwise {f : Byte → Byte → Byte} {g : Bool → Bool → Bool}
    (hbit : ∀ a c b, (f a c).getLsbD b = g (a.getLsbD b) (c.getLsbD b)) (x y : Reg) (s : State) :
    ∃ t, complete (s.advance.setReg x (f (s.reg x) (s.reg y))) = .next t ∧
      (∀ b, (t.reg x).getLsbD b = g ((s.reg x).getLsbD b) ((s.reg y).getLsbD b)) ∧
      (∀ r, r ≠ x → t.reg r = s.reg r) ∧ t.pc = s.pc + 2 ∧ Frame [.registers] s t := by
  obtain ⟨t, hexec, hdest, hrest⟩ := complete_setReg_dest_frame x (f (s.reg x) (s.reg y)) s
  exact ⟨t, hexec, fun b => by rw [hdest, hbit], hrest⟩

/-! ## What each instruction does to the state -/

/-- R172. -/
theorem exec_ldi (x : Reg) (nn : Byte) (s : State) : exec (.ldi x nn) s = complete (s.advance.setReg x nn) := rfl

/-- R173. -/
theorem exec_adi (x : Reg) (nn : Byte) (s : State) :
    exec (.adi x nn) s = complete (s.advance.setReg x (addResult (s.reg x) nn)) := rfl

/-- R174. -/
theorem exec_mov (x y : Reg) (s : State) : exec (.mov x y) s = complete (s.advance.setReg x (s.reg y)) := rfl

/-- R175. -/
theorem exec_orr (x y : Reg) (s : State) :
    exec (.orr x y) s = complete (s.advance.setReg x (s.reg x ||| s.reg y)) := rfl

/-- R176. -/
theorem exec_and (x y : Reg) (s : State) :
    exec (.and x y) s = complete (s.advance.setReg x (s.reg x &&& s.reg y)) := rfl

/-- R177. -/
theorem exec_xor (x y : Reg) (s : State) :
    exec (.xor x y) s = complete (s.advance.setReg x (s.reg x ^^^ s.reg y)) := rfl

/-! ## The words -/

/-- R95, R108: a word that is the encoding of an instruction of the table, other than SYS, decodes to it. -/
theorem decodeWord_of_eq_encode {w : Word} {i : Instr} (hw : w = encode i) (ht : Laws.InTable.Statement i)
    (hsys : ∀ nnn, i ≠ .sys nnn) : decodeWord w = some i :=
  hw ▸ decodeWord_encode_of_inTable ht hsys

/-- R172: the word 6XNN. -/
theorem decodeWord_ldi (x : Reg) (nn : Byte) : decodeWord (0x6#4 ++ x ++ nn) = some (.ldi x nn) :=
  decodeWord_of_eq_encode (append_eq_or_placeXI (by decide) x nn) (Laws.InTable.ldi x nn) (fun _ => Instr.noConfusion)

/-- R173: the word 7XNN. -/
theorem decodeWord_adi (x : Reg) (nn : Byte) : decodeWord (0x7#4 ++ x ++ nn) = some (.adi x nn) :=
  decodeWord_of_eq_encode (append_eq_or_placeXI (by decide) x nn) (Laws.InTable.adi x nn) (fun _ => Instr.noConfusion)

/-- R174: the word 8XY0. -/
theorem decodeWord_mov (x y : Reg) : decodeWord (0x8#4 ++ x ++ y ++ 0x0#4) = some (.mov x y) :=
  decodeWord_of_eq_encode (append_eq_or_placeXY (by decide) x y) (Laws.InTable.mov x y) (fun _ => Instr.noConfusion)

/-- R175: the word 8XY1. -/
theorem decodeWord_orr (x y : Reg) : decodeWord (0x8#4 ++ x ++ y ++ 0x1#4) = some (.orr x y) :=
  decodeWord_of_eq_encode (append_eq_or_placeXY (by decide) x y) (Laws.InTable.orr x y) (fun _ => Instr.noConfusion)

/-- R176: the word 8XY2. -/
theorem decodeWord_and (x y : Reg) : decodeWord (0x8#4 ++ x ++ y ++ 0x2#4) = some (.and x y) :=
  decodeWord_of_eq_encode (append_eq_or_placeXY (by decide) x y) (Laws.InTable.and x y) (fun _ => Instr.noConfusion)

/-- R177: the word 8XY3. -/
theorem decodeWord_xor (x y : Reg) : decodeWord (0x8#4 ++ x ++ y ++ 0x3#4) = some (.xor x y) :=
  decodeWord_of_eq_encode (append_eq_or_placeXY (by decide) x y) (Laws.InTable.xor x y) (fun _ => Instr.noConfusion)

/-! ## The statements -/

/-- Settles O27: LDI writes the immediate to one register. -/
theorem ldiLoadsTheImmediate : Obligations.LdiLoadsTheImmediate := by
  intro x nn s
  rw [exec_ldi]
  exact ⟨decodeWord_ldi x nn, complete_setReg_frame x nn s⟩

/-- Settles O28: ADI writes the low eight bits of the sum to one register, and drops the carry. -/
theorem adiAddsWithoutCarry : Obligations.AdiAddsWithoutCarry := by
  intro x nn s
  obtain ⟨t, hexec, hdest, hrest⟩ := complete_setReg_dest_frame x (addResult (s.reg x) nn) s
  rw [exec_adi]
  exact ⟨decodeWord_adi x nn, t, hexec, by rw [hdest, addResult_toNat], hrest⟩

/-- Settles O29: MOV writes one register's value to another. -/
theorem movCopies : Obligations.MovCopies := by
  intro x y s
  rw [exec_mov]
  exact ⟨decodeWord_mov x y, complete_setReg_frame x (s.reg y) s⟩

/-- Settles O30: ORR, AND and XOR each write a byte operation that acts bit by bit. -/
theorem bitwiseInstructions : Obligations.BitwiseInstructions := by
  intro x y s
  rw [exec_orr, exec_and, exec_xor]
  exact ⟨⟨decodeWord_orr x y, complete_setReg_bitwise (fun _ _ _ => BitVec.getLsbD_or) x y s⟩,
    ⟨decodeWord_and x y, complete_setReg_bitwise (fun _ _ _ => BitVec.getLsbD_and) x y s⟩,
    ⟨decodeWord_xor x y, complete_setReg_bitwise (fun _ _ _ => BitVec.getLsbD_xor) x y s⟩⟩

end Sys2Proof.Machine
end

section
/-! PROOFS. CLS: the display is written with the blank one (42_display R201). -/

namespace Sys2Proof.Machine

/-- A cycle that completes after the advance and a write of the display changes the display alone. -/
theorem complete_setDisplay_frame (d : Display) (s : State) :
    ∃ t, complete (s.advance.setDisplay d) = .next t ∧ t.display = d ∧ t.pc = s.pc + 2 ∧ Frame [.display] s t := by
  refine ⟨_, complete_eq _, rfl, rfl, fun p hp => ?_, ⟨rfl, rfl, rfl, rfl⟩, rfl, rfl⟩
  cases p with
  | display => exact absurd (List.mem_singleton_self _) hp
  | _ => simp [Part.Same]

/-- R201: what CLS does to the state. -/
theorem exec_cls (s : State) : exec .cls s = complete (s.advance.setDisplay Display.blank) := rfl

/-- R201: the word 00E0, which the catch-all SYS matches too (R96). -/
theorem decodeWord_cls : decodeWord 0x00E0 = some .cls :=
  decodeWord_of_eq_encode rfl Laws.InTable.cls (fun _ => Instr.noConfusion)

/-- Settles O35: CLS writes the blank display, whose pixels are all 0. -/
theorem clsClearsEveryPixel : Obligations.ClsClearsEveryPixel := by
  intro s
  obtain ⟨t, hexec, hdisplay, hpc, hframe⟩ := complete_setDisplay_frame Display.blank s
  rw [exec_cls]
  exact ⟨decodeWord_cls, t, hexec, fun y x => by rw [hdisplay, Display.pixel_blank], hpc, hframe⟩

end Sys2Proof.Machine
end

section
/-! PROOFS. Encoding and decoding are inverse but for SYS's two lost words (30_encoding R96, R98, R108). -/

namespace Sys2Proof

/-! ## Digits of format XYN and XF (R91, R108) -/

/-- Format XYN. -/
theorem append_eq_or_placeXYN {d : BitVec 4} {p : Word} (hp : d.setWidth 16 <<< 12 = p) (x y : Reg) (n : Nibble) :
    d ++ x ++ y ++ n = p ||| placeXYN x y n := by
  rw [← BitVec.setWidth_eq (d ++ x ++ y ++ n), BitVec.setWidth_append_append_append_eq_shiftLeft_setWidth_or, ← hp,
    placeXYN, placeXY, placeXF]
  ac_rfl

/-- Format XF, whose last two digits `k` belong to the pattern. -/
theorem append_eq_or_placeXF {d : BitVec 4} {k : BitVec 8} {p : Word}
    (hp : d.setWidth 16 <<< 12 ||| k.setWidth 16 = p) (x : Reg) : d ++ x ++ k = p ||| placeXF x := by
  rw [← BitVec.setWidth_eq (d ++ x ++ k), BitVec.setWidth_append_append_eq_shiftLeft_setWidth_or, ← hp, placeXF]
  ac_rfl

/-! ## The catch-all (R96) -/

/-- R96: the entries before SYS whose pattern has a leading 0 are CLS and RET, each matched by one word. -/
theorem opcodeTable_leading_zero : ∀ e ∈ opcodeTable.dropLast, e.pattern &&& 0xF000 = 0 →
    e.mask = 0xFFFF ∧ ((e.pattern = 0x00E0 ∧ e.id = 1) ∨ (e.pattern = 0x00EE ∧ e.id = 2)) := by
  decide

/-- R96: a word with a leading 0 is matched, before SYS, by CLS as 0x00E0 or by RET as 0x00EE alone. -/
theorem eq_of_matches_of_leading_zero {w : Word} {e : Entry} (he : e ∈ opcodeTable.dropLast) (hm : e.matches w = true)
    (hw : w &&& 0xF000 = 0) : (w = 0x00E0 ∧ e.id = 1) ∨ (w = 0x00EE ∧ e.id = 2) := by
  have hm' : w &&& e.mask = e.pattern := eq_of_beq hm
  have hp : e.pattern &&& 0xF000 = 0 := by
    rw [← hm', BitVec.and_assoc, BitVec.and_comm e.mask, ← BitVec.and_assoc, hw]
    exact BitVec.zero_and
  obtain ⟨hmask, hpattern⟩ := opcodeTable_leading_zero e he hp
  rw [hmask, show w &&& (0xFFFF : Word) = w from BitVec.and_allOnes] at hm'
  rwa [hm']

/-- R96: any other word with a leading 0 reaches SYS. -/
theorem decodeWord_of_leading_zero {w : Word} (hw : w &&& 0xF000 = 0) (hcls : w ≠ 0x00E0) (hret : w ≠ 0x00EE) :
    decodeWord w = some (.sys (fieldNNN w)) := by
  have hnone : opcodeTable.dropLast.find? (fun e => e.matches w) = none := by
    refine List.find?_eq_none.mpr fun e he hm => ?_
    rcases eq_of_matches_of_leading_zero he hm hw with ⟨h, -⟩ | ⟨h, -⟩
    · exact hcls h
    · exact hret h
  have hsys : lookup w = some ⟨35, 0x0000, 0xF000, .a, "SYS", fun f => .sys f.nnn⟩ := by
    rw [lookup, opcodeTable_eq_dropLast_append, List.find?_append, hnone, Option.none_or]
    exact List.find?_cons_of_pos (beq_iff_eq.mpr hw)
  rw [decodeWord, hsys]
  rfl

/-! ## The round trip from instructions -/

/-- R95: every instruction's word is in the table. -/
theorem inTable : ∀ i : Instr, Laws.InTable.Statement i
  | .cls => Laws.InTable.cls
  | .ret => Laws.InTable.ret
  | .jmp nnn => Laws.InTable.jmp nnn
  | .call nnn => Laws.InTable.call nnn
  | .sei x nn => Laws.InTable.sei x nn
  | .sni x nn => Laws.InTable.sni x nn
  | .ser x y => Laws.InTable.ser x y
  | .ldi x nn => Laws.InTable.ldi x nn
  | .adi x nn => Laws.InTable.adi x nn
  | .mov x y => Laws.InTable.mov x y
  | .orr x y => Laws.InTable.orr x y
  | .and x y => Laws.InTable.and x y
  | .xor x y => Laws.InTable.xor x y
  | .add x y => Laws.InTable.add x y
  | .sub x y => Laws.InTable.sub x y
  | .shr x y => Laws.InTable.shr x y
  | .rsb x y => Laws.InTable.rsb x y
  | .shl x y => Laws.InTable.shl x y
  | .snr x y => Laws.InTable.snr x y
  | .lda nnn => Laws.InTable.lda nnn
  | .jpv nnn => Laws.InTable.jpv nnn
  | .rnd x nn => Laws.InTable.rnd x nn
  | .drw x y n => Laws.InTable.drw x y n
  | .skp x => Laws.InTable.skp x
  | .sknp x => Laws.InTable.sknp x
  | .gdt x => Laws.InTable.gdt x
  | .key x => Laws.InTable.key x
  | .sdt x => Laws.InTable.sdt x
  | .sst x => Laws.InTable.sst x
  | .adx x => Laws.InTable.adx x
  | .fnt x => Laws.InTable.fnt x
  | .bcd x => Laws.InTable.bcd x
  | .stm x => Laws.InTable.stm x
  | .ldm x => Laws.InTable.ldm x
  | .sys nnn => Laws.InTable.sys nnn

/-- R108: the word of SYS is its operand. -/
theorem encode_sys_eq_iff (nnn k : Addr) : encode (.sys nnn) = placeA k ↔ nnn = k := by
  rw [encode, show (0x0000 : Word) ||| placeA nnn = placeA nnn from BitVec.zero_or]
  constructor
  · intro h; rw [← Laws.InTable.fields_placeA nnn, h, Laws.InTable.fields_placeA]
  · rintro rfl; rfl

/-- R96, R108: the word of SYS decodes to SYS again, but where CLS or RET is tried first. -/
theorem decodeWord_encode_sys (nnn : Addr) : decodeWord (encode (.sys nnn)) =
    if nnn = 0x0E0 then some .cls else if nnn = 0x0EE then some .ret else some (.sys nnn) := by
  split_ifs with hcls hret
  · subst hcls; decide
  · subst hret; decide
  · have hfield : fieldNNN (encode (.sys nnn)) = nnn := Laws.InTable.fieldsA 0 nnn (by decide)
    have hdecode := decodeWord_of_leading_zero (w := encode (.sys nnn)) (Laws.InTable.matchA 0 nnn (by decide))
      (fun h => hcls ((encode_sys_eq_iff nnn 0x0E0).mp h)) (fun h => hret ((encode_sys_eq_iff nnn 0x0EE).mp h))
    rw [hdecode, hfield]

/-- R108: a well-formed instruction's word decodes to it. -/
theorem decodeWord_encode {i : Instr} (hi : i.WellFormed = true) : decodeWord (encode i) = some i := by
  by_cases hsys : ∃ nnn, i = .sys nnn
  · obtain ⟨nnn, rfl⟩ := hsys
    simp only [Instr.WellFormed, Bool.and_eq_true, bne_iff_ne] at hi
    obtain ⟨hcls, hret⟩ := hi
    exact (decodeWord_encode_sys nnn).trans ((if_neg hcls).trans (if_neg hret))
  · exact decodeWord_encode_of_inTable (inTable i) (not_exists.mp hsys)

/-- A word that is the encoding of a well-formed instruction decodes to it. -/
theorem decodeWord_eq_of_wellFormed {w : Word} {i : Instr} (hw : w = encode i) (hi : i.WellFormed = true) :
    decodeWord w = some i :=
  hw ▸ decodeWord_encode hi

/-- 20_memory R61: a word is its high byte above its low byte. -/
@[simp] theorem wordOfBytes_highByte_lowByte (w : Word) : wordOfBytes (highByte w) (lowByte w) = w :=
  BitVec.extractLsb'_append_extractLsb'_eq_extractLsb' (by decide) |>.trans (by simp)

/-- Settles O1: the entry that makes an instruction is the first to match its word, and no other meets SYS's. -/
theorem decodeEncodeRoundTrip : Obligations.DecodeEncodeRoundTrip := by
  intro i hi
  refine ⟨decodeWord_encode hi, fun rest => ?_⟩
  simp [encodeBytes, decodeBytes, decodeWord_encode hi]

end Sys2Proof
end

section
/-! PROOFS. From words to instructions: a word that decodes is the encoding of its instruction, which entries share a
word, and which words no entry matches (30_encoding R96, R97, R99, R108). -/

namespace Sys2Proof

/-! ## A matched word is its entry's pattern with its own fields placed -/

/-- R95: the mask of an entry is that of its format. -/
theorem mask_eq_of_mem : ∀ e ∈ opcodeTable, e.mask = e.format.mask := by decide

/-- R91, R92: the bits a format's mask leaves out are those of its fields. Bit by bit, each is under the mask or in one
field. -/
theorem Format.mask_or_place (f : Format) (w : Word) : (w &&& f.mask) ||| f.place (fieldsOf w) = w := by
  apply BitVec.eq_of_getLsbD_eq
  intro k hk
  cases f <;>
    simp only [Format.mask, Format.place, placeA, placeXI, placeXY, placeXYN, placeXF, fieldsOf, fieldX, fieldY, fieldN,
      fieldNN, fieldNNN] <;>
    interval_cases k <;> simp

/-- R108: an entry's encode function gives back every word the entry matches. -/
theorem Entry.encode_fieldsOf {e : Entry} {w : Word} (he : e ∈ opcodeTable) (hm : e.matches w = true) :
    e.encode (fieldsOf w) = w := by
  have hp : w &&& e.mask = e.pattern := eq_of_beq hm
  rw [Entry.encode, ← hp, mask_eq_of_mem e he, Format.mask_or_place]

/-- R95, R108: an entry's encode function is the encoder on the instructions the entry makes. -/
theorem encode_make : ∀ e ∈ opcodeTable, ∀ f : Fields, encode (e.make f) = e.encode f := by
  simp [opcodeTable, encode, Entry.encode, Format.place]

/-- A word that decodes was matched by an entry of the table. -/
theorem decodeWord_eq_some {w : Word} {i : Instr} (h : decodeWord w = some i) :
    ∃ e ∈ opcodeTable, e.matches w = true ∧ e.make (fieldsOf w) = i := by
  obtain ⟨e, hlookup, hmake⟩ := Option.map_eq_some_iff.mp h
  exact ⟨e, List.mem_of_find?_eq_some hlookup, List.find?_some (p := fun e => Entry.matches e w) hlookup, hmake⟩

/-- R108: a word that decodes is the encoding of what it decodes to. -/
theorem encode_of_decodeWord {w : Word} {i : Instr} (h : decodeWord w = some i) : encode i = w := by
  obtain ⟨e, he, hm, rfl⟩ := decodeWord_eq_some h
  rw [encode_make e he, Entry.encode_fieldsOf he hm]

/-- R96: what a word decodes to is well-formed, since CLS and RET are tried before SYS. -/
theorem wellFormed_of_decodeWord {w : Word} {i : Instr} (h : decodeWord w = some i) : i.WellFormed = true := by
  have hw := encode_of_decodeWord h
  cases i with
  | sys nnn =>
    rw [← hw, decodeWord_encode_sys] at h
    simp only [Instr.WellFormed, Bool.and_eq_true, bne_iff_ne]
    constructor
    · rintro rfl; simp at h
    · rintro rfl; simp at h
  | _ => rfl

/-- Settles O3: the decoder makes its instruction from the fields of the word it matched. -/
theorem decodedWordIsTheEncoding : Obligations.DecodedWordIsTheEncoding :=
  fun _ _ h => ⟨encode_of_decodeWord h, wellFormed_of_decodeWord h⟩

/-! ## The assembler's write (R108) -/

/-- 20_memory R61: the value of a word from its two bytes. -/
theorem highByte_lowByte_toNat (w : Word) : (highByte w).toNat * 256 + (lowByte w).toNat = w.toNat := by
  have := w.isLt
  simp only [highByte, lowByte, BitVec.extractLsb'_toNat, Nat.shiftRight_eq_div_pow]
  omega

/-- The word at the cursor, big-endian, after the assembler's write. -/
theorem assembleAt_read (cursor : Nat) (i : Instr) (m : Machine.Memory) :
    (Machine.assembleAt cursor i m).1.read cursor = highByte (encode i) ∧
      (Machine.assembleAt cursor i m).1.read (cursor + 1) = lowByte (encode i) := by
  simp [Machine.assembleAt, encodeBytes, Machine.Memory.read_writeBytes]

/-- Settles O2: the entry's encode function inverts the fields, and SYS loses two words to CLS and RET. -/
theorem encodeFunctionsInvertDecode : Obligations.EncodeFunctionsInvertDecode := by
  refine ⟨fun e _ f => ?_, fun w e h => ?_, decodeWord_encode_sys, fun cursor i m => ⟨rfl, ?_, fun a h0 h1 => ?_⟩⟩
  · cases hf : e.format <;> simp only [Entry.encode, hf] <;> rfl
  · exact Entry.encode_fieldsOf (List.mem_of_find?_eq_some h) (List.find?_some (p := fun e => Entry.matches e w) h)
  · obtain ⟨hhigh, hlow⟩ := assembleAt_read cursor i m
    rw [hhigh, hlow, highByte_lowByte_toNat]
  · exact Machine.Memory.read_writeBytes_outside m cursor (encodeBytes i) a
      (by simp only [encodeBytes, List.length_cons, List.length_nil]; omega)

/-! ## Overlap (R96, R97) -/

/-- Settles O4: before SYS no two entries share a word, and SYS shares one each with CLS and RET. -/
theorem entriesOverlapOnlyAtTheCatchAll : Obligations.EntriesOverlapOnlyAtTheCatchAll := by
  intro w e e' he he' hid hm hm'
  have hlast : ∀ e ∈ opcodeTable.dropLast, e.id < 35 := by decide
  rw [opcodeTable_eq_dropLast_append, List.mem_append, List.mem_singleton] at he he'
  rcases he' with he' | rfl <;> rcases he with he | rfl
  · have hsame := (lookup_eq_some_of_matches he hm).symm.trans (lookup_eq_some_of_matches he' hm')
    rw [Option.some.inj hsame] at hid
    exact absurd hid (lt_irrefl _)
  · exact absurd (hlast e' he') (not_lt_of_gt hid)
  · exact ⟨rfl, eq_of_matches_of_leading_zero he hm (eq_of_beq hm')⟩
  · exact absurd hid (lt_irrefl _)

/-! ## The words that no entry matches (R99) -/

/-- The value of appended words. -/
theorem toNat_append_eq_add {m n : Nat} (x : BitVec m) (y : BitVec n) : (x ++ y).toNat = x.toNat * 2 ^ n + y.toNat := by
  rw [BitVec.toNat_append, ← Nat.shiftLeft_add_eq_or_of_lt y.isLt, Nat.shiftLeft_eq]

/-- The leading digit of a word, as a value. -/
theorem leadingDigit_toNat (w : Word) : (w.extractLsb' 12 4).toNat = w.toNat / 4096 := by
  have := w.isLt
  simp only [BitVec.extractLsb'_toNat, Nat.shiftRight_eq_div_pow]
  omega

/-- R91: the bits under a mask of the leading digit and of low bits `m`, as a value. -/
theorem and_leadingMask_toNat (w : Word) (m : BitVec 12) :
    (w &&& (0xF#4 ++ m)).toNat = w.toNat / 4096 * 4096 + (fieldNNN w &&& m).toNat := by
  have hw : w = w.extractLsb' 12 4 ++ fieldNNN w := by
    rw [fieldNNN, BitVec.extractLsb'_append_extractLsb'_eq_extractLsb' (by decide)]
    simp
  have hbits : w &&& (0xF#4 ++ m) = w.extractLsb' 12 4 ++ (fieldNNN w &&& m) := by
    conv_lhs => rw [hw, BitVec.and_append, show (0xF#4 : BitVec 4) = BitVec.allOnes 4 from rfl, BitVec.and_allOnes]
  rw [hbits, toNat_append_eq_add, leadingDigit_toNat]
  rfl

/-- R91: the low `k` bits of a word, as a value. -/
theorem fieldNNN_and_toNat (w : Word) {m : BitVec 12} {k : Nat} (hk : k ≤ 12) (hm : m.toNat = 2 ^ k - 1) :
    (fieldNNN w &&& m).toNat = w.toNat % 2 ^ k := by
  rw [BitVec.toNat_and, hm, Nat.and_two_pow_sub_one_eq_mod, fieldNNN, BitVec.extractLsb'_toNat, Nat.shiftRight_zero,
    Nat.mod_mod_of_dvd _ (Nat.pow_dvd_pow 2 hk)]

/-- R91: the bits under the mask of formats A, XI and XYN. -/
theorem and_mask_leading (w : Word) : (w &&& 0xF000).toNat = w.toNat / 4096 * 4096 + 0 :=
  (and_leadingMask_toNat w 0x000).trans
    (congrArg _ ((fieldNNN_and_toNat w (k := 0) (by decide) rfl).trans (Nat.mod_one _)))

/-- R91: the bits under the mask of format XY. -/
theorem and_mask_outer (w : Word) : (w &&& 0xF00F).toNat = w.toNat / 4096 * 4096 + w.toNat % 16 :=
  (and_leadingMask_toNat w 0x00F).trans (congrArg _ (fieldNNN_and_toNat w (k := 4) (by decide) rfl))

/-- R91: the bits under the mask of format XF. -/
theorem and_mask_trailing (w : Word) : (w &&& 0xF0FF).toNat = w.toNat / 4096 * 4096 + w.toNat % 256 :=
  (and_leadingMask_toNat w 0x0FF).trans (congrArg _ (fieldNNN_and_toNat w (k := 8) (by decide) rfl))

/-- A leading digit and what follows it, compared digit by digit. -/
theorem leading_add_ne_iff {t b c : Nat} (hb : b < 4096) : t * 4096 + b ≠ c ↔ t = c / 4096 → b ≠ c % 4096 := by
  omega

/-- R94: a word decodes to nothing when it is unlike every pattern under its mask. -/
theorem decodeWord_eq_none_iff (w : Word) :
    decodeWord w = none ↔ ∀ e ∈ opcodeTable, (w &&& e.mask).toNat ≠ e.pattern.toNat := by
  simp [decodeWord, lookup, List.find?_eq_none, Entry.matches, BitVec.toNat_inj, -BitVec.toNat_and]

/-- Settles O5: under each leading digit the table's patterns leave out the trailing digits listed. -/
theorem illegalWordsAreExactlyThese : Obligations.IllegalWordsAreExactlyThese := by
  intro w
  have ht : w.toNat / 4096 < 16 := by have := w.isLt; omega
  have hn : w.toNat % 16 < 16 := Nat.mod_lt _ (by decide)
  have hfull : (w &&& (0xFFFF : Word)).toNat = w.toNat / 4096 * 4096 + w.toNat % 4096 := by
    rw [show w &&& (0xFFFF : Word) = w from BitVec.and_allOnes]
    omega
  rw [decodeWord_eq_none_iff]
  simp only [opcodeTable, List.cons_append, List.nil_append, List.forall_mem_cons, and_mask_leading, and_mask_outer,
    and_mask_trailing, hfull, leading_add_ne_iff (show 0 < 4096 by decide),
    leading_add_ne_iff (show w.toNat % 16 < 4096 by omega), leading_add_ne_iff (show w.toNat % 256 < 4096 by omega),
    leading_add_ne_iff (show w.toNat % 4096 < 4096 by omega)]
  generalize w.toNat / 4096 = t at ht
  interval_cases t <;> simp
  -- the leading digit 8 alone leaves a choice of the last digit
  omega

/-! ## A few words -/

/-- Settles O6: each word is decoded by the table. -/
theorem chosenWordsDecode : Obligations.ChosenWordsDecode := by
  unfold Obligations.ChosenWordsDecode
  decide

end Sys2Proof
end

section
/-! PROOFS. Which parts of the state an update writes, and that the updates of a cycle compose: the frame of every
instruction comes from these (10_state R41). -/

namespace Sys2Proof.Machine

/-- From `s` to `t` nothing changed but the named parts, the named registers and `pc`; in particular neither the fault
latch nor the cycle counter. The registers are named one by one, not as a part. -/
structure WritesOnly (parts : Part → Prop) (regs : Reg → Prop) (s t : State) : Prop where
  part : ∀ p, p ≠ .registers → ¬ parts p → p.Same s t
  reg : ∀ r, ¬ regs r → t.reg r = s.reg r
  inputs : SameInputs s t
  fault : t.fault = s.fault
  iter : t.iter = s.iter

/-- The updates before the end of a cycle write only the parts listed. -/
abbrev WritesParts (changed : List Part) (s t : State) : Prop :=
  WritesOnly (· ∈ changed) (fun _ => .registers ∈ changed) s t

/-- 10_state R33: a cycle that writes only the parts listed has the frame of a completed cycle. -/
theorem WritesOnly.frame {changed : List Part} {s u : State} (h : WritesParts changed s u) :
    Frame changed s (u.setIter (u.iter + 1)) := by
  refine ⟨fun p hp => ?_, h.inputs, h.fault, congrArg (· + 1) h.iter⟩
  cases p with
  | registers => exact fun r => h.reg r hp
  | _ => exact h.part _ (by simp) hp

/-- A part that is kept twice is kept. -/
theorem Part.Same.trans {p : Part} {s t u : State} (h : p.Same s t) (h' : p.Same t u) : p.Same s u := by
  cases p with
  | stack => exact ⟨h'.1.trans h.1, h'.2.trans h.2⟩
  | memory | registers => exact fun a => (h' a).trans (h a)
  | _ => exact Eq.trans h' h

/-- Inputs that are kept twice are kept. -/
theorem SameInputs.trans {s t u : State} (h : SameInputs s t) (h' : SameInputs t u) : SameInputs s u := by
  obtain ⟨hkey, hjust, hcfg, hagenda⟩ := h
  obtain ⟨hkey', hjust', hcfg', hagenda'⟩ := h'
  exact ⟨hkey'.trans hkey, hjust'.trans hjust, hcfg'.trans hcfg, hagenda'.trans hagenda⟩

section
variable {parts : Part → Prop} {regs : Reg → Prop} {s t : State}

/-- Nothing is written yet. -/
theorem WritesOnly.refl (s : State) : WritesOnly parts regs s s :=
  ⟨fun p _ _ => by cases p <;> simp [Part.Same], fun _ _ => rfl, ⟨rfl, rfl, rfl, rfl⟩, rfl, rfl⟩

theorem WritesOnly.setPc (h : WritesOnly parts regs s t) (v : Word) : WritesOnly parts regs s (t.setPc v) :=
  ⟨fun p hreg hp => by cases p <;> exact h.part _ hreg hp, h.reg, h.inputs, h.fault, h.iter⟩

theorem WritesOnly.advance (s : State) : WritesOnly parts regs s s.advance := (WritesOnly.refl s).setPc _

theorem WritesOnly.skipIf (h : WritesOnly parts regs s t) (c : Bool) : WritesOnly parts regs s (t.skipIf c) := by
  rw [State.skipIf_eq]; exact h.setPc _

theorem WritesOnly.setReg (h : WritesOnly parts regs s t) {x : Reg} (hx : regs x) (v : Byte) :
    WritesOnly parts regs s (t.setReg x v) where
  part p hreg hp := by
    cases p with
    | registers => exact absurd rfl hreg
    | _ => exact h.part _ hreg hp
  reg r hr := by
    have hne : r ≠ x := by rintro rfl; exact hr hx
    rw [State.setReg_reg, if_neg hne, h.reg r hr]
  inputs := h.inputs
  fault := h.fault
  iter := h.iter

/-- After an update of one part that may be written. -/
theorem WritesOnly.andThen (h : WritesOnly parts regs s t) {q : Part} (hq : parts q) {u : State}
    (hpart : ∀ p, p ≠ q → p.Same t u) (hregs : u.regs = t.regs) (hinputs : SameInputs t u) (hfault : u.fault = t.fault)
    (hiter : u.iter = t.iter) : WritesOnly parts regs s u where
  part p hreg hp := (h.part p hreg hp).trans (hpart p (fun e => hp (e ▸ hq)))
  reg r hr := (congrArg (fun v : Vector Byte 16 => v[r.toNat]'r.isLt) hregs).trans (h.reg r hr)
  inputs := h.inputs.trans hinputs
  fault := hfault.trans h.fault
  iter := hiter.trans h.iter

theorem WritesOnly.setMem (h : WritesOnly parts regs s t) (hm : parts .memory) (v : Memory) :
    WritesOnly parts regs s (t.setMem v) :=
  h.andThen hm (fun p hp => by cases p <;> simp_all [Part.Same]) rfl ⟨rfl, rfl, rfl, rfl⟩ rfl rfl

theorem WritesOnly.setDisplay (h : WritesOnly parts regs s t) (hd : parts .display) (v : Display) :
    WritesOnly parts regs s (t.setDisplay v) :=
  h.andThen hd (fun p hp => by cases p <;> simp_all [Part.Same]) rfl ⟨rfl, rfl, rfl, rfl⟩ rfl rfl

theorem WritesOnly.setI (h : WritesOnly parts regs s t) (hi : parts .index) (v : Word) :
    WritesOnly parts regs s (t.setI v) :=
  h.andThen hi (fun p hp => by cases p <;> simp_all [Part.Same]) rfl ⟨rfl, rfl, rfl, rfl⟩ rfl rfl

theorem WritesOnly.setStack (h : WritesOnly parts regs s t) (hk : parts .stack) (v : Vector Word 16) :
    WritesOnly parts regs s (t.setStack v) :=
  h.andThen hk (fun p hp => by cases p <;> simp_all [Part.Same]) rfl ⟨rfl, rfl, rfl, rfl⟩ rfl rfl

theorem WritesOnly.setDepth (h : WritesOnly parts regs s t) (hk : parts .stack) (v : Fin 17) :
    WritesOnly parts regs s (t.setDepth v) :=
  h.andThen hk (fun p hp => by cases p <;> simp_all [Part.Same]) rfl ⟨rfl, rfl, rfl, rfl⟩ rfl rfl

theorem WritesOnly.setDt (h : WritesOnly parts regs s t) (hd : parts .delayTimer) (v : Byte) :
    WritesOnly parts regs s (t.setDt v) :=
  h.andThen hd (fun p hp => by cases p <;> simp_all [Part.Same]) rfl ⟨rfl, rfl, rfl, rfl⟩ rfl rfl

theorem WritesOnly.setSt (h : WritesOnly parts regs s t) (hd : parts .soundTimer) (v : Byte) :
    WritesOnly parts regs s (t.setSt v) :=
  h.andThen hd (fun p hp => by cases p <;> simp_all [Part.Same]) rfl ⟨rfl, rfl, rfl, rfl⟩ rfl rfl

theorem WritesOnly.setDraws (h : WritesOnly parts regs s t) (hd : parts .draws) (v : Nat) :
    WritesOnly parts regs s (t.setDraws v) :=
  h.andThen hd (fun p hp => by cases p <;> simp_all [Part.Same]) rfl ⟨rfl, rfl, rfl, rfl⟩ rfl rfl

/-- R171: a result and then a flag. -/
theorem WritesOnly.setRegThenFlag (h : WritesOnly parts regs s t) {x : Reg} (hx : regs x) (hvf : regs vf) (v : Byte)
    (f : Bool) : WritesOnly parts regs s (t.setRegThenFlag x v f) :=
  (h.setReg hx v).setReg hvf _

/-- R241: VF under a policy that writes it. -/
theorem WritesOnly.indexFlag (h : WritesOnly parts regs s t) (hvf : t.cfg.indexPolicy ≠ .untouched → regs vf)
    (o : Bool) : WritesOnly parts regs s (t.indexFlag o) := by
  unfold State.indexFlag
  split
  · exact h.setReg (hvf (by simp_all)) _
  · exact h.setReg (hvf (by simp_all)) _
  · exact h

/-- R247: `I` under the quirk that moves it. -/
theorem WritesOnly.dumpIncrement (h : WritesOnly parts regs s t) (hi : t.cfg.dumpIncrementsI = true → parts .index)
    (x : Reg) : WritesOnly parts regs s (t.dumpIncrement x) := by
  unfold State.dumpIncrement
  split
  · exact h.setI (hi ‹_›) _
  · exact h

/-- R246: a range of registers. -/
theorem WritesOnly.loadRegs (h : WritesOnly parts regs s t) {j : Nat} {bs : List Byte} (hj : j + bs.length ≤ 16)
    (hregs : ∀ r : Reg, j ≤ r.toNat → r.toNat < j + bs.length → regs r) :
    WritesOnly parts regs s (t.loadRegs j bs) := by
  induction bs generalizing j t with
  | nil => exact h
  | cons b rest ih =>
    simp only [List.length_cons] at hj hregs
    have hnum : (BitVec.ofNat 4 j).toNat = j := Nat.mod_eq_of_lt (by omega)
    exact ih (h.setReg (hregs _ (by omega) (by omega)) b) (by omega) (fun r hlo hhi => hregs r (by omega) (by omega))

end

end Sys2Proof.Machine
end

section
/-! PROOFS. What the instructions that can fault do in each case, and what `exec` can answer, said once: a completed
cycle that wrote only what the instruction may write, a fault with the instruction's own word, or FNT's refusal
(40_cycle_control R131, 60_exceptions R270, 10_state R41). -/

namespace Sys2Proof.Machine

/-! ## The instructions with more than one outcome -/

/-- A push with room. -/
theorem State.push_of_lt {s : State} (v : Word) (h : s.depth.val < 16) :
    s.push v = some ((s.setStack (s.stack.set s.depth.val v h)).setDepth ⟨s.depth.val + 1, by omega⟩) := dif_pos h

/-- A pop of a stack that is not empty. -/
theorem State.pop_of_pos {s : State} (h : 0 < s.depth.val) :
    s.pop = some (s.stack[s.depth.val - 1]'(by omega), s.setDepth ⟨s.depth.val - 1, by omega⟩) := dif_pos h

/-- R133: RET with an address on the stack. -/
theorem exec_ret_of_pos {s : State} (h : 0 < s.depth.val) :
    exec .ret s = complete ((s.setDepth ⟨s.depth.val - 1, by omega⟩).setPc (s.stack[s.depth.val - 1]'(by omega))) := by
  simp only [exec, execRet, State.pop_of_pos (s := s.advance) h]
  rfl

/-- R274: RET with an empty stack. -/
theorem exec_ret_of_zero {s : State} (h : s.depth.val = 0) : exec .ret s = raise .stackUnderflow (encode .ret) s := by
  simp only [exec, execRet, (State.pop_eq_none s.advance).mpr h]

/-- R134: CALL with room on the stack. -/
theorem exec_call_of_lt {s : State} (nnn : Addr) (h : s.depth.val < 16) :
    exec (.call nnn) s = complete (((s.setStack (s.stack.set s.depth.val (s.pc + 2) h)).setDepth
      ⟨s.depth.val + 1, by omega⟩).setPc (absolute nnn)) := by
  simp only [exec, execCall, State.push_of_lt (s := s.advance) _ h]
  rfl

/-- R273: CALL with a full stack. -/
theorem exec_call_of_full {s : State} (nnn : Addr) (h : 16 ≤ s.depth.val) :
    exec (.call nnn) s = raise .stackOverflow (encode (.call nnn)) s := by
  simp only [exec, execCall, (State.push_eq_none _ s.advance).mpr h]

/-- R202: DRW of a sprite that lies in memory. -/
theorem exec_drw_of_inBounds {s : State} (x y : Reg) {n : Nibble} (h : inBounds (dataAddress s) n.toNat = true) :
    exec (.drw x y n) s = complete ((s.advance.setDisplay (spriteOutcome x y n s).1).setReg vf
      (flagByte (spriteOutcome x y n s).2)) := if_pos h

/-- R275: DRW of a sprite that does not. -/
theorem exec_drw_of_not_inBounds {s : State} (x y : Reg) {n : Nibble} (h : ¬ inBounds (dataAddress s) n.toNat = true) :
    exec (.drw x y n) s = raise .memoryOutOfBounds (encode (.drw x y n)) s := if_neg h

/-- R244: BCD in bounds. -/
theorem exec_bcd_of_inBounds {s : State} (x : Reg) (h : inBounds (dataAddress s) 3 = true) :
    exec (.bcd x) s =
      complete (s.advance.setMem (s.mem.writeBytes (dataAddress s) (decimalDigits (s.reg x)))) := if_pos h

/-- R275: BCD out of bounds. -/
theorem exec_bcd_of_not_inBounds {s : State} (x : Reg) (h : ¬ inBounds (dataAddress s) 3 = true) :
    exec (.bcd x) s = raise .memoryOutOfBounds (encode (.bcd x)) s := if_neg h

/-- R245, R247: STM in bounds. -/
theorem exec_stm_of_inBounds {s : State} {x : Reg} (h : inBounds (dataAddress s) (rangeLength x) = true) :
    exec (.stm x) s =
      complete ((s.advance.setMem (s.mem.writeBytes (dataAddress s) (s.regsUpTo x))).dumpIncrement x) := if_pos h

/-- R275: STM out of bounds. -/
theorem exec_stm_of_not_inBounds {s : State} {x : Reg} (h : ¬ inBounds (dataAddress s) (rangeLength x) = true) :
    exec (.stm x) s = raise .memoryOutOfBounds (encode (.stm x)) s := if_neg h

/-- R246, R247: LDM in bounds. -/
theorem exec_ldm_of_inBounds {s : State} {x : Reg} (h : inBounds (dataAddress s) (rangeLength x) = true) :
    exec (.ldm x) s =
      complete ((s.advance.loadRegs 0 (s.mem.readBytes (dataAddress s) (rangeLength x))).dumpIncrement x) := if_pos h

/-- R275: LDM out of bounds. -/
theorem exec_ldm_of_not_inBounds {s : State} {x : Reg} (h : ¬ inBounds (dataAddress s) (rangeLength x) = true) :
    exec (.ldm x) s = raise .memoryOutOfBounds (encode (.ldm x)) s := if_neg h

/-- R221: SKP of a key number. -/
theorem exec_skp_of_le {s : State} {x : Reg} (h : (s.reg x).toNat ≤ 15) :
    exec (.skp x) s = complete (s.advance.skipIf (s.key.getLsbD (s.reg x).toNat)) := by
  simp only [exec, execSkp, keyNumber, if_pos h]

/-- R277: SKP of a value that is no key number. -/
theorem exec_skp_of_lt {s : State} {x : Reg} (h : 15 < (s.reg x).toNat) :
    exec (.skp x) s = raise .keyIndexOutOfRange (encode (.skp x)) s := by
  simp only [exec, execSkp, keyNumber, if_neg (not_le_of_gt h)]

/-- R222: SKNP of a key number. -/
theorem exec_sknp_of_le {s : State} {x : Reg} (h : (s.reg x).toNat ≤ 15) :
    exec (.sknp x) s = complete (s.advance.skipIf (!s.key.getLsbD (s.reg x).toNat)) := by
  simp only [exec, execSknp, keyNumber, if_pos h]

/-- R277: SKNP of a value that is no key number. -/
theorem exec_sknp_of_lt {s : State} {x : Reg} (h : 15 < (s.reg x).toNat) :
    exec (.sknp x) s = raise .keyIndexOutOfRange (encode (.sknp x)) s := by
  simp only [exec, execSknp, keyNumber, if_neg (not_le_of_gt h)]

/-- R223: KEY with a press latched. -/
theorem exec_key_of_some {s : State} (x : Reg) {k : Nat} (h : lowestPressed s.just = some k) :
    exec (.key x) s = complete (s.advance.setReg x (BitVec.ofNat 8 k)) := by
  simp only [exec, execKey, h]

/-- R223: KEY with none latched goes back to itself. -/
theorem exec_key_of_none {s : State} (x : Reg) (h : lowestPressed s.just = none) : exec (.key x) s = complete s := by
  simp only [exec, execKey, h, State.advance_rewind]

/-- R243: FNT of a hexadecimal digit. -/
theorem exec_fnt_of_le {s : State} {x : Reg} (h : (s.reg x).toNat ≤ 15) :
    exec (.fnt x) s = complete (s.advance.setI (glyphAddress s.cfg (s.reg x).toNat)) := if_pos h

/-- R243, U3: FNT of anything else. -/
theorem exec_fnt_of_lt {s : State} {x : Reg} (h : 15 < (s.reg x).toNat) :
    exec (.fnt x) s = .refused (.fontDigitUnspecified (s.reg x)) := if_neg (not_le_of_gt h)

/-! ## What `exec` can answer -/

/-- The updates of a cycle write only the parts and registers the instruction may write. -/
abbrev WritesOwn (i : Instr) (s t : State) : Prop :=
  WritesOnly (fun p => writesPart s.cfg p i = true) (fun r => writesReg s.cfg r i = true) s t

/-- R131, R270: an instruction completes having written only what it may, faults with its own word, or is FNT of more
than 15, which is refused. -/
theorem exec_outcome (i : Instr) (s : State) :
    (∃ u, exec i s = complete u ∧ WritesOwn i s u) ∨
    (∃ kind, kind ≠ .fetchOutOfBounds ∧ exec i s = raise kind (encode i) s) ∨
    (∃ x, i = .fnt x ∧ 15 < (s.reg x).toNat ∧ exec i s = .refused (.fontDigitUnspecified (s.reg x))) := by
  have hrefl : ∀ {i}, WritesOwn i s s := WritesOnly.refl s
  have hadvance : ∀ {i}, WritesOwn i s s.advance := WritesOnly.advance s
  cases i with
  | cls => exact .inl ⟨_, rfl, hadvance.setDisplay rfl _⟩
  | ret =>
    rcases Nat.eq_zero_or_pos s.depth.val with h | h
    · exact .inr (.inl ⟨_, by decide, exec_ret_of_zero h⟩)
    · exact .inl ⟨_, exec_ret_of_pos h, (hrefl.setDepth rfl _).setPc _⟩
  | jmp nnn => exact .inl ⟨_, rfl, hadvance.setPc _⟩
  | call nnn =>
    rcases Nat.lt_or_ge s.depth.val 16 with h | h
    · exact .inl ⟨_, exec_call_of_lt nnn h, ((hrefl.setStack rfl _).setDepth rfl _).setPc _⟩
    · exact .inr (.inl ⟨_, by decide, exec_call_of_full nnn h⟩)
  | sei | sni | ser | snr => exact .inl ⟨_, rfl, hadvance.skipIf _⟩
  | ldi | adi | mov | orr | and | xor | gdt => exact .inl ⟨_, rfl, hadvance.setReg (by simp [writesReg]) _⟩
  | add | sub | shr | rsb | shl =>
    exact .inl ⟨_, rfl, hadvance.setRegThenFlag (by simp [writesReg]) (by simp [writesReg]) _ _⟩
  | lda nnn => exact .inl ⟨_, rfl, hadvance.setI rfl _⟩
  | jpv nnn => exact .inl ⟨_, rfl, hadvance.setPc _⟩
  | rnd x nn => exact .inl ⟨_, rfl, (hadvance.setReg (by simp [writesReg]) _).setDraws rfl _⟩
  | drw x y n =>
    by_cases h : inBounds (dataAddress s) n.toNat = true
    · exact .inl ⟨_, exec_drw_of_inBounds x y h, (hadvance.setDisplay rfl _).setReg (by simp [writesReg]) _⟩
    · exact .inr (.inl ⟨_, by decide, exec_drw_of_not_inBounds x y h⟩)
  | skp x =>
    rcases Nat.lt_or_ge 15 (s.reg x).toNat with h | h
    · exact .inr (.inl ⟨_, by decide, exec_skp_of_lt h⟩)
    · exact .inl ⟨_, exec_skp_of_le h, hadvance.skipIf _⟩
  | sknp x =>
    rcases Nat.lt_or_ge 15 (s.reg x).toNat with h | h
    · exact .inr (.inl ⟨_, by decide, exec_sknp_of_lt h⟩)
    · exact .inl ⟨_, exec_sknp_of_le h, hadvance.skipIf _⟩
  | key x =>
    cases h : lowestPressed s.just with
    | none => exact .inl ⟨_, exec_key_of_none x h, WritesOnly.refl s⟩
    | some k => exact .inl ⟨_, exec_key_of_some x h, hadvance.setReg (by simp [writesReg]) _⟩
  | sdt x => exact .inl ⟨_, rfl, hadvance.setDt rfl _⟩
  | sst x => exact .inl ⟨_, rfl, hadvance.setSt rfl _⟩
  | adx x =>
    refine .inl ⟨_, rfl, (hadvance.setI rfl _).indexFlag (fun hp => ?_) _⟩
    have hp' : s.cfg.indexPolicy ≠ .untouched := hp
    cases h : s.cfg.indexPolicy <;> simp_all [writesReg, Config.indexOverflowFlag, Config.indexVfFlush]
  | fnt x =>
    rcases Nat.lt_or_ge 15 (s.reg x).toNat with h | h
    · exact .inr (.inr ⟨x, rfl, h, exec_fnt_of_lt h⟩)
    · exact .inl ⟨_, exec_fnt_of_le h, hadvance.setI rfl _⟩
  | bcd x =>
    by_cases h : inBounds (dataAddress s) 3 = true
    · exact .inl ⟨_, exec_bcd_of_inBounds x h, hadvance.setMem rfl _⟩
    · exact .inr (.inl ⟨_, by decide, exec_bcd_of_not_inBounds x h⟩)
  | stm x =>
    by_cases h : inBounds (dataAddress s) (rangeLength x) = true
    · exact .inl ⟨_, exec_stm_of_inBounds h, (hadvance.setMem rfl _).dumpIncrement id x⟩
    · exact .inr (.inl ⟨_, by decide, exec_stm_of_not_inBounds h⟩)
  | ldm x =>
    by_cases h : inBounds (dataAddress s) (rangeLength x) = true
    · refine .inl ⟨_, exec_ldm_of_inBounds h, (hadvance.loadRegs ?_ fun r _ hr => ?_).dumpIncrement ?_ x⟩
      · rw [Memory.length_readBytes, rangeLength]; omega
      · rw [Memory.length_readBytes, rangeLength] at hr
        exact decide_eq_true (by omega)
      · rw [State.loadRegs_eq]; exact id
    · exact .inr (.inl ⟨_, by decide, exec_ldm_of_not_inBounds h⟩)
  | sys nnn => exact .inr (.inl ⟨_, by decide, rfl⟩)

/-- What `exec` has done when it answers a next state: completed the cycle, or taken a fault. -/
theorem exec_cases {i : Instr} {s t : State} (h : exec i s = .next t) :
    (∃ u, t = u.setIter (u.iter + 1) ∧ WritesOwn i s u) ∨
    ∃ kind, kind ≠ .fetchOutOfBounds ∧ t = faulted kind (encode i) s := by
  rcases exec_outcome i s with ⟨u, hu, hwrites⟩ | ⟨kind, hkind, hraise⟩ | ⟨x, -, -, hrefused⟩
  · exact .inl ⟨u, (complete_eq_next u t).mp (hu.symm.trans h), hwrites⟩
  · exact .inr ⟨kind, hkind, (raise_eq_next kind (encode i) s t).mp (hraise.symm.trans h)⟩
  · cases hrefused.symm.trans h

/-- Settles O15: a completed cycle and a fault are next states, and the only refusal is FNT's. -/
theorem everyInstructionAnswersANextState : Obligations.EveryInstructionAnswersANextState := by
  intro i s
  rcases exec_outcome i s with ⟨u, hu, -⟩ | ⟨kind, -, hraise⟩ | hrefused
  · exact .inl ⟨_, hu⟩
  · exact .inl ⟨_, hraise⟩
  · exact .inr hrefused

/-- Settles O16: the updates write only the instruction's registers, and a fault writes none. -/
theorem registersHaveTheirWriters : Obligations.RegistersHaveTheirWriters := by
  intro i s t r h hr
  rcases exec_cases h with ⟨u, rfl, hwrites⟩ | ⟨kind, -, rfl⟩
  · exact hwrites.reg r (by simp [hr])
  · rfl

/-- A fault leaves every part alone. -/
theorem same_faulted (p : Part) (kind : FaultKind) (opcode : Word) (s : State) : p.Same s (faulted kind opcode s) := by
  cases p with
  | stack => exact ⟨rfl, rfl⟩
  | memory | registers => exact fun _ => rfl
  | _ => exact Eq.refl _

/-- Settles O17: the updates write only the instruction's parts, and a fault writes none. -/
theorem partsHaveTheirWriters : Obligations.PartsHaveTheirWriters := by
  intro i s t h
  rcases exec_cases h with ⟨u, rfl, hwrites⟩ | ⟨kind, -, rfl⟩
  · refine ⟨fun p hp => ?_, hwrites.inputs⟩
    have hne : p ≠ .registers := by rintro rfl; exact absurd hp (by simp [writesPart])
    have hsame := hwrites.part p hne (by simp [hp])
    cases p <;> exact hsame
  · exact ⟨fun p _ => same_faulted p kind (encode i) s, rfl, rfl, rfl, rfl⟩

end Sys2Proof.Machine
end

section
/-! PROOFS. The invariant: which updates keep it, that every instruction, cycle and move of the host does, and the
bounds of every reachable state (10_state R42). -/

namespace Sys2Proof.Machine

/-! ## Updates -/

section
variable {s t : State}

/-- The invariant speaks of memory, `I`, `pc`, the stack and the parameters alone. -/
theorem State.Inv.congr (h : s.Inv) (hmem : t.mem = s.mem) (hi : t.i = s.i) (hpc : t.pc = s.pc)
    (hstack : t.stack = s.stack) (hdepth : t.depth = s.depth) (hcfg : t.cfg = s.cfg) : t.Inv := by
  simpa only [State.Inv, hmem, hi, hpc, hstack, hdepth, hcfg] using h

theorem State.Inv.setPc (h : s.Inv) {v : Word} (hv : v.toNat ≤ 0x10FE) : (s.setPc v).Inv := by
  obtain ⟨hmem, hi, -, hstack, hcfg⟩ := h
  exact ⟨hmem, hi, hv, hstack, hcfg⟩

theorem State.Inv.setI (h : s.Inv) {v : Word} (hv : v.toNat ≤ 0x1000) : (s.setI v).Inv := by
  obtain ⟨hmem, -, hpc, hstack, hcfg⟩ := h
  exact ⟨hmem, hv, hpc, hstack, hcfg⟩

theorem State.Inv.setMem (h : s.Inv) {v : Memory} (hv : v.wf) : (s.setMem v).Inv := by
  obtain ⟨-, hi, hpc, hstack, hcfg⟩ := h
  exact ⟨hv, hi, hpc, hstack, hcfg⟩

theorem State.Inv.setRegs (h : s.Inv) (v : Vector Byte 16) : (s.setRegs v).Inv := h.congr rfl rfl rfl rfl rfl rfl

/-- R133: fewer return addresses are held. -/
theorem State.Inv.setDepth_of_le (h : s.Inv) {d : Fin 17} (hd : d.val ≤ s.depth.val) : (s.setDepth d).Inv := by
  obtain ⟨hmem, hi, hpc, hstack, hcfg⟩ := h
  exact ⟨hmem, hi, hpc, fun k hk => hstack k (lt_of_lt_of_le hk hd), hcfg⟩

/-- R134: one more return address is held. -/
theorem State.Inv.push (h : s.Inv) {v : Word} (hv : v.toNat ≤ 0x1000) (hd : s.depth.val < 16) :
    ((s.setStack (s.stack.set s.depth.val v hd)).setDepth ⟨s.depth.val + 1, by omega⟩).Inv := by
  obtain ⟨hmem, hi, hpc, hstack, hcfg⟩ := h
  refine ⟨hmem, hi, hpc, fun k hk => ?_, hcfg⟩
  have hk' : k.val < s.depth.val + 1 := hk
  show (s.stack.set s.depth.val v hd)[k.val].toNat ≤ 0x1000
  rw [Vector.getElem_set]
  split
  · exact hv
  · exact hstack k (by omega)

/-! ## Bounds of `pc` (R42 (d)) -/

/-- The address after an instruction that could be fetched. -/
theorem toNat_add_two_le (hpc : s.pc.toNat ≤ 4094) : (s.pc + 2).toNat ≤ 0x1000 := by
  rw [BitVec.toNat_add, show (2 : Word).toNat = 2 from rfl]
  omega

theorem State.Inv.advance (h : s.Inv) (hpc : s.pc.toNat ≤ 4094) : s.advance.Inv :=
  h.setPc ((toNat_add_two_le hpc).trans (by decide))

theorem State.Inv.skipIf (h : s.Inv) (hpc : s.pc.toNat ≤ 4094) (c : Bool) : (s.advance.skipIf c).Inv := by
  rw [State.advance_skipIf]
  refine h.setPc ?_
  split
  · rw [BitVec.toNat_add, show (4 : Word).toNat = 4 from rfl]; omega
  · exact (toNat_add_two_le hpc).trans (by decide)

theorem absolute_le (nnn : Addr) : (absolute nnn).toNat ≤ 0xFFF := by
  rw [absolute_toNat]; omega

/-- R136, D11: the sum of an address and a byte is not reduced. -/
theorem absolute_add_toNat (nnn : Addr) (v : Byte) :
    (absolute nnn + v.setWidth 16).toNat = nnn.toNat + v.toNat := by
  rw [BitVec.toNat_add, absolute_toNat, BitVec.toNat_setWidth_of_le (by decide)]
  omega

/-! ## Bounds of `I` (R42 (c)) -/

/-- R241: the masked sum. -/
theorem indexResult_toNat (i : Word) (v : Byte) : (indexResult i v).toNat = (i.toNat + v.toNat) % 4096 := by
  rw [indexResult, BitVec.toNat_ofNat, indexSum]; omega

/-- R243: a glyph's address is not reduced. -/
theorem glyphAddress_toNat (c : Config) {d : Nat} (hd : d ≤ 15) :
    (glyphAddress c d).toNat = c.fontOrigin.toNat + 5 * d := by
  rw [glyphAddress, BitVec.toNat_ofNat]; omega

/-- R247: after a range that lies in memory, `I` moves past it or stays. -/
theorem dumpIncrement_i_toNat {x : Reg} (h : s.i.toNat + x.toNat ≤ 0xFFF) :
    (s.dumpIncrement x).i.toNat = if s.cfg.dumpIncrementsI then s.i.toNat + x.toNat + 1 else s.i.toNat := by
  rw [State.dumpIncrement_eq, State.setI_i]
  cases s.cfg.dumpIncrementsI with
  | false => rfl
  | true => simp only [cond_true, if_true, BitVec.toNat_add, BitVec.toNat_ofNat]; omega

theorem State.Inv.dumpIncrement (h : s.Inv) {x : Reg} (hx : s.i.toNat + x.toNat ≤ 0xFFF) : (s.dumpIncrement x).Inv := by
  have hi := dumpIncrement_i_toNat hx
  rw [State.dumpIncrement_eq] at hi ⊢
  rw [State.setI_i] at hi
  refine h.setI (hi.trans_le ?_)
  split <;> omega

/-- R66: the range of STM and LDM lies in memory. -/
theorem inBounds_rangeLength_iff {x : Reg} :
    inBounds (dataAddress s) (rangeLength x) = true ↔ s.i.toNat + x.toNat ≤ 0xFFF := by
  rw [inBounds_iff, rangeLength, dataAddress]; omega

end

/-! ## The parameters latched at reset (R313) -/

/-- R242, R313: what a reset latches of the inputs presented; the two add-to-index quirks are one field (log 6). -/
def latchedConfig (r : ResetInputs) : Config where
  shiftUsesVy := r.quirkShiftUsesVy
  indexPolicy :=
    if r.quirkIndexOverflowFlag then .overflowFlag else if r.quirkIndexVfFlush then .vfFlush else .untouched
  dumpIncrementsI := r.quirkDumpIncrementsI
  programOrigin := r.programOrigin
  fontOrigin := r.fontOrigin
  fontData := r.fontData

/-- R70, R242, R313: inputs are latched if the font fits and not both quirks are presented, else refused. -/
theorem latch_eq (r : ResetInputs) :
    latch r = if r.fontOrigin.toNat + 79 ≤ 0xFFF ∧ ¬ (r.quirkIndexOverflowFlag = true ∧ r.quirkIndexVfFlush = true)
      then some (latchedConfig r) else none := by
  unfold latch latchedConfig
  cases r.quirkIndexOverflowFlag <;> cases r.quirkIndexVfFlush <;> simp

/-! ## Instructions, cycles and moves -/

section
variable {s t : State}

theorem inv_of_complete {u : State} (h : complete u = .next t) (hu : u.Inv) : t.Inv := by
  rw [(complete_eq_next u t).mp h]
  exact hu.congr rfl rfl rfl rfl rfl rfl

theorem State.Inv.faulted (h : s.Inv) (kind : FaultKind) (opcode : Word) : (faulted kind opcode s).Inv :=
  h.congr rfl rfl rfl rfl rfl rfl

theorem inv_of_raise {kind : FaultKind} {opcode : Word} (h : raise kind opcode s = .next t) (hs : s.Inv) : t.Inv := by
  rw [(raise_eq_next kind opcode s t).mp h]
  exact hs.faulted kind opcode

/-- Every instruction that could be fetched keeps the invariant. -/
theorem exec_inv {i : Instr} (h : s.Inv) (hpc : s.pc.toNat ≤ 4094) (hexec : exec i s = .next t) : t.Inv := by
  have hadvance : s.advance.Inv := h.advance hpc
  have hregs : ∀ v, (s.advance.setRegs v).Inv := hadvance.setRegs
  cases i with
  | cls => exact inv_of_complete hexec (hadvance.congr rfl rfl rfl rfl rfl rfl)
  | ret =>
    rcases Nat.eq_zero_or_pos s.depth.val with hd | hd
    · exact inv_of_raise ((exec_ret_of_zero hd).symm.trans hexec) h
    · refine inv_of_complete ((exec_ret_of_pos hd).symm.trans hexec) ((h.setDepth_of_le (Nat.sub_le _ _)).setPc ?_)
      obtain ⟨-, -, -, hstack, -⟩ := h
      exact (hstack ⟨s.depth.val - 1, by omega⟩ (Nat.sub_one_lt_of_lt hd)).trans (by decide)
  | jmp nnn => exact inv_of_complete hexec (h.setPc ((absolute_le nnn).trans (by decide)))
  | call nnn =>
    rcases Nat.lt_or_ge s.depth.val 16 with hd | hd
    · exact inv_of_complete ((exec_call_of_lt nnn hd).symm.trans hexec)
        ((h.push (toNat_add_two_le hpc) hd).setPc ((absolute_le nnn).trans (by decide)))
    · exact inv_of_raise ((exec_call_of_full nnn hd).symm.trans hexec) h
  | jpv nnn =>
    refine inv_of_complete hexec (h.setPc ?_)
    rw [absolute_add_toNat]; omega
  | sei | sni | ser | snr => exact inv_of_complete hexec (h.skipIf hpc _)
  | ldi | adi | mov | orr | and | xor | add | sub | shr | rsb | shl | rnd | gdt | sdt | sst =>
    exact inv_of_complete hexec (hadvance.congr rfl rfl rfl rfl rfl rfl)
  | lda nnn => exact inv_of_complete hexec (hadvance.setI ((absolute_le nnn).trans (by decide)))
  | drw x y n =>
    by_cases hb : inBounds (dataAddress s) n.toNat = true
    · exact inv_of_complete ((exec_drw_of_inBounds x y hb).symm.trans hexec) (hadvance.congr rfl rfl rfl rfl rfl rfl)
    · exact inv_of_raise ((exec_drw_of_not_inBounds x y hb).symm.trans hexec) h
  | skp x =>
    rcases Nat.lt_or_ge 15 (s.reg x).toNat with hk | hk
    · exact inv_of_raise ((exec_skp_of_lt hk).symm.trans hexec) h
    · exact inv_of_complete ((exec_skp_of_le hk).symm.trans hexec) (h.skipIf hpc _)
  | sknp x =>
    rcases Nat.lt_or_ge 15 (s.reg x).toNat with hk | hk
    · exact inv_of_raise ((exec_sknp_of_lt hk).symm.trans hexec) h
    · exact inv_of_complete ((exec_sknp_of_le hk).symm.trans hexec) (h.skipIf hpc _)
  | key x =>
    cases hk : lowestPressed s.just with
    | none => exact inv_of_complete ((exec_key_of_none x hk).symm.trans hexec) h
    | some k =>
      exact inv_of_complete ((exec_key_of_some x hk).symm.trans hexec) (hadvance.congr rfl rfl rfl rfl rfl rfl)
  | adx x =>
    refine inv_of_complete hexec ?_
    rw [State.indexFlag_eq]
    refine (hadvance.setI ?_).setRegs _
    rw [indexResult_toNat]; omega
  | fnt x =>
    rcases Nat.lt_or_ge 15 (s.reg x).toNat with hk | hk
    · cases (exec_fnt_of_lt hk).symm.trans hexec
    · refine inv_of_complete ((exec_fnt_of_le hk).symm.trans hexec) (hadvance.setI ?_)
      obtain ⟨-, -, -, -, hlegal⟩ := h
      have hfont : s.cfg.fontOrigin.toNat + 79 ≤ 0xFFF := hlegal
      rw [glyphAddress_toNat _ hk]; omega
  | bcd x =>
    by_cases hb : inBounds (dataAddress s) 3 = true
    · exact inv_of_complete ((exec_bcd_of_inBounds x hb).symm.trans hexec)
        (hadvance.setMem (Memory.writeBytes_wf h.1 (inBounds_le hb (Nat.succ_pos 2))))
    · exact inv_of_raise ((exec_bcd_of_not_inBounds x hb).symm.trans hexec) h
  | stm x =>
    by_cases hb : inBounds (dataAddress s) (rangeLength x) = true
    · refine inv_of_complete ((exec_stm_of_inBounds hb).symm.trans hexec)
        ((hadvance.setMem (Memory.writeBytes_wf h.1 ?_)).dumpIncrement (inBounds_rangeLength_iff.mp hb))
      rw [State.length_regsUpTo]
      exact inBounds_le hb (Nat.succ_pos _)
    · exact inv_of_raise ((exec_stm_of_not_inBounds hb).symm.trans hexec) h
  | ldm x =>
    by_cases hb : inBounds (dataAddress s) (rangeLength x) = true
    · refine inv_of_complete ((exec_ldm_of_inBounds hb).symm.trans hexec) ?_
      rw [State.loadRegs_eq]
      exact (hregs _).dumpIncrement (inBounds_rangeLength_iff.mp hb)
    · exact inv_of_raise ((exec_ldm_of_not_inBounds hb).symm.trans hexec) h
  | sys nnn => exact inv_of_raise hexec h

/-- A cycle keeps the invariant: what it executes could be fetched. -/
theorem cycle_inv (h : s.Inv) (hcycle : cycle s = .next t) : t.Inv := by
  rcases cycle_cases hcycle with ⟨-, rfl⟩ | ⟨-, -, rfl⟩ | ⟨i, hpc, -, hexec⟩
  · exact h.faulted _ _
  · exact h.faulted _ _
  · exact exec_inv h hpc hexec

/-- A tick changes the timers alone. -/
theorem tick_inv (h : s.Inv) (k : Nat) : (tick k s).Inv := by
  unfold tick
  split
  · exact h
  · exact h.congr rfl rfl rfl rfl rfl rfl

/-- R313: what is latched at reset keeps the font inside memory. -/
theorem latch_legal {r : ResetInputs} {c : Config} (h : latch r = some c) : c.Legal := by
  rw [latch_eq] at h
  split at h
  · obtain ⟨hfont, -⟩ := ‹_ ∧ _›
    exact Option.some.inj h ▸ hfont
  · cases h

/-- R312: memory after a reset is canonical. -/
theorem resetMemory_wf {c : Config} (h : c.Legal) : (resetMemory c).wf := by
  have hlegal : c.fontOrigin.toNat + 79 ≤ 0xFFF := h
  refine Memory.writeBytes_wf (Memory.writeBytes_wf Memory.nil_wf ?_) ?_
  · rw [List.length_replicate]; decide
  · rw [fontBytes, List.length_map, List.length_range, memSize]; omega

/-- R310: a reset with legal parameters meets the invariant, whatever came before. -/
theorem initialise_inv {c : Config} (h : c.Legal) (s : State) : (initialise c s).Inv := by
  refine ⟨resetMemory_wf h, Nat.zero_le _, ?_, fun k hk => absurd hk (Nat.not_lt_zero _), h⟩
  exact (absolute_le c.programOrigin).trans (by decide)

/-- R314: an image that fits is placed inside memory. -/
theorem loadImage_inv (h : s.Inv) {image : List Byte} (hfits : imageFits s.cfg image = true) :
    (loadImage image s).Inv := by
  simp only [imageFits, Bool.and_eq_true, decide_eq_true_eq] at hfits
  refine h.setMem (Memory.writeBytes_wf h.1 ?_)
  have := s.cfg.programOrigin.isLt
  simp only [memSize] at hfits ⊢
  omega

/-- Every move keeps the invariant. -/
theorem applyMove_inv {m : HostMove} (h : s.Inv) (hmove : applyMove m s = .next t) : t.Inv := by
  rcases applyMove_cases hmove with ⟨-, -, hcycle⟩ | ⟨-, -, rfl⟩ | ⟨k, n, -, -, rfl⟩ | ⟨-, -, -, -, rfl⟩ |
    ⟨levels, presses, -, rfl⟩ | ⟨r, c, -, hlatch, rfl⟩ | ⟨image, -, hfits, rfl⟩ | ⟨a, v, -, rfl⟩
  · exact cycle_inv h hcycle
  · exact h
  · exact (tick_inv h k).congr rfl rfl rfl rfl rfl rfl
  · exact h
  · exact h.congr rfl rfl rfl rfl rfl rfl
  · exact initialise_inv (latch_legal hlatch) s
  · exact loadImage_inv h hfits
  · exact h.setMem (Memory.write_wf h.1 a.isLt)

end

/-- Settles O57: a step is a cycle or a move, and each keeps the invariant. -/
theorem stepKeepsTheInvariant : Obligations.StepKeepsTheInvariant := by
  intro s t h hstep
  rcases step_cases hstep with ⟨-, -, hcycle⟩ | ⟨m, rest, -, hmove⟩
  · exact cycle_inv h hcycle
  · have hrest : (s.setAgenda rest).Inv := h.congr rfl rfl rfl rfl rfl rfl
    exact applyMove_inv hrest hmove

/-- Settles O56: memory lists nothing, the stack is empty, and `pc` and `I` are in range. -/
theorem resetMeetsTheInvariant : Obligations.ResetMeetsTheInvariant := by
  intro moves
  have hreset : State.reset.Inv := by decide
  exact hreset.congr rfl rfl rfl rfl rfl rfl

/-- Every reachable state meets the invariant. -/
theorem Reachable.inv {s : State} (h : Reachable s) : s.Inv := by
  induction h with
  | reset moves => exact resetMeetsTheInvariant moves
  | step _ hstep ih => exact stepKeepsTheInvariant _ _ ih hstep

/-- D17: the three-valued policy cannot stand for both quirks. -/
theorem not_both_quirks (c : Config) : ¬ (c.indexOverflowFlag = true ∧ c.indexVfFlush = true) := by
  simp only [Config.indexOverflowFlag, Config.indexVfFlush]
  cases c.indexPolicy <;> decide

/-- Settles O58: (c) and (d) are in the invariant, the rest is in the types. -/
theorem reachableStatesAreBounded : Obligations.ReachableStatesAreBounded := by
  intro s h _
  obtain ⟨-, hi, hpc, -, -⟩ := h.inv
  refine ⟨fun y x => (s.display.pixel y x).eq_false_or_eq_true.symm, ⟨?_, ?_⟩, hi, hpc,
    ⟨Nat.le_of_lt_succ s.dt.isLt, Nat.le_of_lt_succ s.st.isLt, fun r => Nat.le_of_lt_succ (s.reg r).isLt⟩,
    not_both_quirks s.cfg⟩
  · rw [State.sp]; omega
  · have := s.depth.isLt
    rw [State.sp]; omega

end Sys2Proof.Machine
end

section
/-! PROOFS. The cycle and the step: what runs next, precise faults, the halted engine, the cycle counter
(40_cycle_control R131, R132; 60_exceptions R270, R279; 10_state R33). -/

namespace Sys2Proof.Machine

/-! ## The cycle, case by case (R131) -/

/-- R276: a `pc` that cannot be fetched from. -/
theorem cycle_of_fetch_above {s : State} (hpc : 4094 < s.pc.toNat) :
    cycle s = .next (faulted .fetchOutOfBounds 0x0000 s) := if_pos hpc

/-- R272: a word that decodes to nothing. -/
theorem cycle_of_no_match {s : State} (hpc : s.pc.toNat ≤ 4094) (h : decodeWord s.fetchWord = none) :
    cycle s = .next (faulted .decodeFailure s.fetchWord s) := by
  simp only [cycle, if_neg (not_lt_of_ge hpc), h, raise_eq]

/-- R131: a word that decodes. -/
theorem cycle_of_decode {s : State} {i : Instr} (hpc : s.pc.toNat ≤ 4094) (h : decodeWord s.fetchWord = some i) :
    cycle s = exec i s := by
  simp only [cycle, if_neg (not_lt_of_ge hpc), h]

/-- Writing the agenda with the moves it holds is doing nothing. -/
theorem setAgenda_of_eq {s : State} {moves : List HostMove} (h : s.agenda = moves) : s.setAgenda moves = s := by
  subst h; rfl

/-- Settles O7: the step is the cycle, and the cycle is the decoded instruction. -/
theorem stepRunsTheDecodedInstruction : Obligations.StepRunsTheDecodedInstruction := by
  intro s i hfault hpc hdecode
  have hstep : ∀ rest, CycleIsNext s rest → step s = exec i (s.setAgenda rest) := fun rest hnext =>
    (step_of_cycleIsNext hnext hfault).trans (cycle_of_decode (s := s.setAgenda rest) hpc hdecode)
  refine ⟨fun h => ?_, fun rest h => hstep rest (.inr h)⟩
  rw [hstep [] (.inl ⟨h, rfl⟩), setAgenda_of_eq h]

/-- What `decodeTableWord` reads is the word it was given. -/
theorem decodeTableWord_eq (nbits w : Nat) : decodeTableWord nbits w = decodeWord (tableWord nbits w) := by
  rw [decodeTableWord, decodeBytes, wordOfBytes_highByte_lowByte]
  cases decodeWord (tableWord nbits w) <;> rfl

/-- Log 14: a placed word is fetched next, from a `pc` in range. -/
theorem placeNextWord_fetch (w : Word) (s : State) :
    (placeNextWord w s).pc.toNat ≤ 4094 ∧ (placeNextWord w s).fetchWord = w := by
  constructor
  · simp only [placeNextWord, State.setMem_pc, State.setFault_pc, State.setAgenda_pc, State.setPc_pc]
    split
    · assumption
    · decide
  · simp [placeNextWord, State.fetchWord, Memory.read_writeBytes]

/-- Settles O8: the placed word is what the cycle fetches and decodes. -/
theorem placedWordRunsNext : Obligations.PlacedWordRunsNext := by
  intro s w i hdecode
  rw [decodeTableWord_eq] at hdecode
  obtain ⟨hpc, hfetch⟩ := placeNextWord_fetch (tableWord 16 w) s
  exact (stepRunsTheDecodedInstruction (s.withFetchWord 16 w) i rfl hpc (hfetch.symm ▸ hdecode)).1 rfl

/-- Settles O10: a cycle that is next is the step, and it stops at the fetch. -/
theorem fetchAbove4094Faults : Obligations.FetchAbove4094Faults := fun s rest hnext hfault hpc =>
  (step_of_cycleIsNext hnext hfault).trans (cycle_of_fetch_above (s := s.setAgenda rest) hpc)

/-- Settles O11: a cycle that is next is the step, and it stops at the decode. -/
theorem illegalWordFaults : Obligations.IllegalWordFaults := fun s rest hnext hfault hpc hdecode =>
  (step_of_cycleIsNext hnext hfault).trans (cycle_of_no_match (s := s.setAgenda rest) hpc hdecode)

/-! ## What a cycle leaves (R270, R279, R33) -/

/-- R270, R279, R33: a cycle completes and is counted, or leaves the latch written with the word fetched, or with 0
where none was. -/
theorem cycle_result {s t : State} (hfault : s.fault = none) (h : cycle s = .next t) :
    (t.fault = none ∧ t.iter = s.iter + 1 ∧ SameInputs s t) ∨
    ∃ kind op, t = faulted kind op s ∧ (kind = .fetchOutOfBounds → op = 0x0000 ∧ 4094 < s.pc.toNat) ∧
      (kind ≠ .fetchOutOfBounds → op = s.fetchWord) := by
  rcases cycle_cases h with ⟨hpc, rfl⟩ | ⟨-, -, rfl⟩ | ⟨i, -, hdecode, hexec⟩
  · exact .inr ⟨_, _, rfl, fun _ => ⟨rfl, hpc⟩, fun hne => absurd rfl hne⟩
  · exact .inr ⟨_, _, rfl, fun heq => absurd heq (by decide), fun _ => rfl⟩
  · rcases exec_cases hexec with ⟨u, rfl, hwrites⟩ | ⟨kind, hkind, rfl⟩
    · exact .inl ⟨hwrites.fault.trans hfault, congrArg (· + 1) hwrites.iter, hwrites.inputs⟩
    · exact .inr ⟨kind, _, rfl, fun heq => absurd heq hkind, fun _ => encode_of_decodeWord hdecode⟩

/-- Settles O12: a cycle that leaves the latch written is a fault's cycle. -/
theorem faultsArePrecise : Obligations.FaultsArePrecise := by
  intro s t rest hnext hfault hstep hlatched
  have hcycle := (step_of_cycleIsNext hnext hfault).symm.trans hstep
  rcases cycle_result (s := s.setAgenda rest) hfault hcycle with ⟨hclear, -⟩ | hprecise
  · exact absurd hclear hlatched
  · exact hprecise

/-! ## The halted engine (R279, R132) -/

/-- A write of memory leaves every other part alone. -/
theorem same_setMem {p : Part} (hp : p ≠ .memory) (v : Memory) (s : State) : p.Same s (s.setMem v) := by
  cases p with
  | memory => exact absurd rfl hp
  | _ => simp [Part.Same]

/-- R279: a move of a halted engine, unless it is a reset, keeps the latch, `pc`, the counter, the parameters and every
part but memory. -/
theorem applyMove_halted {m : HostMove} {s t : State} (hfault : s.fault ≠ none) (hreset : ∀ r, m ≠ .reset r)
    (h : applyMove m s = .next t) :
    t.fault = s.fault ∧ t.pc = s.pc ∧ t.iter = s.iter ∧ t.cfg = s.cfg ∧ ∀ p : Part, p ≠ .memory → p.Same s t := by
  have hsame : ∀ p : Part, p ≠ .memory → p.Same s s := fun p hp => same_setMem hp s.mem s
  rcases applyMove_cases h with ⟨-, hnone, -⟩ | ⟨-, -, rfl⟩ | ⟨-, -, -, hnone, -⟩ | ⟨-, -, -, -, rfl⟩ |
    ⟨levels, presses, -, rfl⟩ | ⟨r, c, hr, -⟩ | ⟨image, -, -, rfl⟩ | ⟨a, v, -, rfl⟩
  · exact absurd hnone hfault
  · exact ⟨rfl, rfl, rfl, rfl, hsame⟩
  · exact absurd hnone hfault
  · exact ⟨rfl, rfl, rfl, rfl, hsame⟩
  · exact ⟨rfl, rfl, rfl, rfl, fun p hp => by cases p <;> exact hsame _ hp⟩
  · exact absurd hr (hreset r)
  · exact ⟨rfl, rfl, rfl, rfl, fun p hp => same_setMem hp _ s⟩
  · exact ⟨rfl, rfl, rfl, rfl, fun p hp => same_setMem hp _ s⟩

/-- R279: a cycle or a call of a halted engine is only used up. -/
theorem step_halted {s : State} (hfault : s.fault ≠ none) {m : HostMove} {rest : List HostMove}
    (hm : m = .cycle ∨ ∃ k n, m = .call k n) (h : s.agenda = m :: rest) : step s = .next (s.setAgenda rest) := by
  obtain ⟨r, hr⟩ := Option.ne_none_iff_exists'.mp hfault
  rcases hm with rfl | ⟨k, n, rfl⟩ <;> simp only [step, nextMove, h, applyMove, State.setAgenda_fault, hr]

/-- Settles O13: with the latch set every move but a reset and a write of memory does nothing to the engine. -/
theorem haltedEngineStaysHalted : Obligations.HaltedEngineStaysHalted := by
  intro s r hr
  have hfault : s.fault ≠ none := by simp [hr]
  refine ⟨fun h => by simp only [step, nextMove, h, hr], fun rest h => step_halted hfault (.inl rfl) h,
    fun k n rest h => step_halted hfault (.inr ⟨k, n, rfl⟩) h, fun k => by simp only [tick, hr],
    fun t hstep hreset => ?_⟩
  rcases step_cases hstep with ⟨-, hnone, -⟩ | ⟨m, rest, hagenda, hmove⟩
  · exact absurd hnone hfault
  · obtain ⟨hlatch, hpc, hiter, hcfg, hparts⟩ := applyMove_halted (s := s.setAgenda rest) hfault
      (fun inputs heq => hreset inputs rest (heq ▸ hagenda)) hmove
    refine ⟨hlatch, hpc, hiter, hcfg, fun p hp => ?_⟩
    have hsame := hparts p hp
    cases p <;> exact hsame

/-- Settles O14: a cycle is counted if it completes, and not if it faults or the engine is halted. -/
theorem iterCountsCompletedCycles : Obligations.IterCountsCompletedCycles := by
  intro s t rest hnext hstep
  by_cases hfault : s.fault = none
  · have hcycle := (step_of_cycleIsNext hnext hfault).symm.trans hstep
    rcases cycle_result (s := s.setAgenda rest) hfault hcycle with ⟨hclear, hiter, -⟩ | ⟨kind, op, rfl, -⟩
    · rw [if_pos hclear]; exact hiter
    · rfl
  · rcases hnext with ⟨hempty, -⟩ | hagenda
    · rcases step_cases hstep with ⟨-, hnone, -⟩ | ⟨m, rest, hagenda, -⟩
      · exact absurd hnone hfault
      · rw [hempty] at hagenda; cases hagenda
    · have ht : t = s.setAgenda rest := by
        have := (step_halted hfault (.inl rfl) hagenda).symm.trans hstep
        injection this with this
        exact this.symm
      subst ht
      exact (if_neg hfault).symm

end Sys2Proof.Machine
end

section
/-! PROOFS. JPV, the skips on inequality, CALL and RET, and SYS (40_cycle_control R133, R134, R136, R138, R140,
R141). -/

namespace Sys2Proof.Machine

/-! ## JPV and the skips -/

/-- R136: what JPV does to the state. -/
theorem exec_jpv (nnn : Addr) (s : State) :
    exec (.jpv nnn) s = complete (s.setPc (absolute nnn + (s.reg 0).setWidth 16)) := rfl

/-- R138: what SNI does to the state. -/
theorem exec_sni (x : Reg) (nn : Byte) (s : State) :
    exec (.sni x nn) s = complete (s.advance.skipIf (s.reg x != nn)) := rfl

/-- R140: what SNR does to the state. -/
theorem exec_snr (x y : Reg) (s : State) :
    exec (.snr x y) s = complete (s.advance.skipIf (s.reg x != s.reg y)) := rfl

/-- Settles O19: the sum of an address and a byte does not leave sixteen bits. -/
theorem jpvAddsV0 : Obligations.JpvAddsV0 := by
  intro nnn s
  obtain ⟨t, hexec, hpc, hframe⟩ := complete_setPc_frame (absolute nnn + (s.reg 0).setWidth 16) s
  rw [exec_jpv]
  exact ⟨decodeWord_eq_of_wellFormed (append_eq_or_placeA (by decide) nnn) rfl, t, hexec,
    by rw [hpc, absolute_add_toNat], hframe⟩

/-- R142: a skip on two values that differ. -/
theorem complete_skipIf_ne_frame (a b : Byte) (s : State) :
    ∃ t, complete (s.advance.skipIf (a != b)) = .next t ∧ t.pc = (if a = b then s.pc + 2 else s.pc + 4) ∧
      Frame [] s t := by
  obtain ⟨t, hexec, hpc, hframe⟩ := complete_skipIf_frame (a != b) s
  refine ⟨t, hexec, ?_, hframe⟩
  rw [hpc]
  by_cases h : a = b <;> simp [h]

/-- Settles O25: SNI and SNR are skips on values that differ. -/
theorem sniAndSnrSkipIfDifferent : Obligations.SniAndSnrSkipIfDifferent := by
  intro x y nn s
  rw [exec_sni, exec_snr]
  exact ⟨⟨decodeWord_eq_of_wellFormed (append_eq_or_placeXI (by decide) x nn) rfl, complete_skipIf_ne_frame _ _ s⟩,
    ⟨decodeWord_eq_of_wellFormed (append_eq_or_placeXY (by decide) x y) rfl, complete_skipIf_ne_frame _ _ s⟩⟩

/-! ## CALL and RET -/

/-- R134: the word 2NNN. -/
theorem append_eq_encode_call (nnn : Addr) : 0x2#4 ++ nnn = encode (.call nnn) :=
  append_eq_or_placeA (p := 0x2000) (by decide) nnn

/-- R134: what CALL leaves, with room on the stack. -/
theorem exec_call_frame (nnn : Addr) {s : State} (h : s.depth.val < 16) :
    ∃ t, exec (.call nnn) s = .next t ∧ t.pc = absolute nnn ∧ t.depth.val = s.depth.val + 1 ∧
      t.stack = s.stack.set s.depth.val (s.pc + 2) h ∧ Frame [.stack] s t := by
  have hwrites : WritesParts [.stack] s (((s.setStack (s.stack.set s.depth.val (s.pc + 2) h)).setDepth
      ⟨s.depth.val + 1, by omega⟩).setPc (absolute nnn)) :=
    (((WritesOnly.refl s).setStack (by simp) _).setDepth (by simp) _).setPc _
  exact ⟨_, (exec_call_of_lt nnn h).trans (complete_eq _), rfl, rfl, rfl, hwrites.frame⟩

/-- Settles O20: CALL writes the slot above the top, or finds no slot there. -/
theorem callPushesTheNextAddress : Obligations.CallPushesTheNextAddress := by
  intro nnn s
  refine ⟨decodeWord_eq_of_wellFormed (append_eq_encode_call nnn) rfl, fun hsp => ?_, fun hsp => ?_⟩
  · have hd : s.depth.val < 16 := by simp only [State.sp] at hsp; omega
    obtain ⟨t, hexec, hpc, hdepth, hstack, hframe⟩ := exec_call_frame nnn hd
    have hsp' : t.sp = s.depth.val := by simp only [State.sp]; omega
    refine ⟨t, hexec, by rw [hpc, absolute_toNat], by simp only [State.sp]; omega, fun k => ?_, hframe⟩
    rw [hsp', Fin.getElem_fin, hstack, Vector.getElem_set]
    simp only [Nat.cast_inj, eq_comm, Fin.getElem_fin]
  · have hd : 16 ≤ s.depth.val := by simp only [State.sp] at hsp; omega
    rw [append_eq_encode_call, exec_call_of_full nnn hd, raise_eq]

/-- R133: what RET leaves, with an address on the stack. -/
theorem exec_ret_frame {s : State} (h : 0 < s.depth.val) :
    ∃ t, exec .ret s = .next t ∧ t.pc = s.stack[s.depth.val - 1]'(by omega) ∧ t.depth.val = s.depth.val - 1 ∧
      t.stack = s.stack ∧ Frame [.stack] s t := by
  have hwrites : WritesParts [.stack] s ((s.setDepth ⟨s.depth.val - 1, by omega⟩).setPc
      (s.stack[s.depth.val - 1]'(by omega))) := ((WritesOnly.refl s).setDepth (by simp) _).setPc _
  exact ⟨_, (exec_ret_of_pos h).trans (complete_eq _), rfl, rfl, rfl, hwrites.frame⟩

/-- Settles O21: RET reads the top slot, or finds none. -/
theorem retPopsTheReturnAddress : Obligations.RetPopsTheReturnAddress := by
  intro s
  refine ⟨decodeWord_eq_of_wellFormed (i := .ret) rfl rfl, fun k hk => ?_, fun hsp => ?_⟩
  · have hd : s.depth.val = k.val + 1 := by simp only [State.sp] at hk; omega
    obtain ⟨t, hexec, hpc, hdepth, hstack, hframe⟩ := exec_ret_frame (s := s) (by omega)
    refine ⟨t, hexec, ?_, by simp only [State.sp]; omega, hstack, hframe⟩
    simp only [hpc, hd, Nat.add_sub_cancel, Fin.getElem_fin]
  · have hd : s.depth.val = 0 := by simp only [State.sp] at hsp; omega
    exact (exec_ret_of_zero hd).trans (raise_eq _ _ s)

/-- Settles O22: RET reads the slot that CALL wrote. -/
theorem callThenRetReturns : Obligations.CallThenRetReturns := by
  intro nnn s hsp
  have hd : s.depth.val < 16 := by
    have := s.depth.isLt
    simp only [State.sp] at hsp; omega
  obtain ⟨t, hexec, -, hdepth, hstack, -⟩ := exec_call_frame nnn hd
  refine ⟨t, hexec, fun t' hstack' hdepth' => ?_⟩
  have hd' : t'.depth.val = s.depth.val + 1 := by rw [hdepth', hdepth]
  obtain ⟨u, hexec', hpc, hdepth'', -, -⟩ := exec_ret_frame (s := t') (by omega)
  refine ⟨u, hexec', ?_, by simp only [State.sp]; omega⟩
  simp only [hpc, hd', Nat.add_sub_cancel, hstack', hstack, Vector.getElem_set_self]

/-! ## SYS -/

/-- R141: the word 0NNN. -/
theorem append_eq_encode_sys (nnn : Addr) : 0x0#4 ++ nnn = encode (.sys nnn) :=
  append_eq_or_placeA (p := 0x0000) (by decide) nnn

/-- Settles O26: SYS's whole meaning is the fault, and its words are those CLS and RET leave. -/
theorem sysTakesMachineCall : Obligations.SysTakesMachineCall := by
  intro nnn s
  rw [append_eq_encode_sys]
  refine ⟨fun hcls hret => decodeWord_encode ?_, rfl⟩
  simp only [Instr.WellFormed, Bool.and_eq_true, bne_iff_ne]
  exact ⟨hcls, hret⟩

end Sys2Proof.Machine
end

section
/-! PROOFS. ADD, SUB, RSB and the shifts: a result, then the flag in VF; and RND (41_alu R171, R178 to R184). -/

namespace Sys2Proof.Machine

/-- R171, D8: a cycle that completes after the advance, a result and a flag; VF holds the flag, be it the destination or
not. -/
theorem complete_setRegThenFlag_frame (x : Reg) (v : Byte) (f : Bool) (s : State) :
    ∃ t, complete (s.advance.setRegThenFlag x v f) = .next t ∧ (x ≠ vf → t.reg x = v) ∧ t.reg vf = flagByte f ∧
      (∀ r, r ≠ x → r ≠ vf → t.reg r = s.reg r) ∧ t.pc = s.pc + 2 ∧ Frame [.registers] s t := by
  have hwrites : WritesParts [.registers] s (s.advance.setRegThenFlag x v f) :=
    (WritesOnly.advance s).setRegThenFlag (by simp) (by simp) v f
  exact ⟨_, complete_eq _, fun hx => by simp [hx], by simp, fun r hx hvf => by simp [hx, hvf], rfl, hwrites.frame⟩

/-! ## What each instruction does to the state -/

/-- R178. -/
theorem exec_add (x y : Reg) (s : State) : exec (.add x y) s =
    complete (s.advance.setRegThenFlag x (addResult (s.reg x) (s.reg y)) (addCarry (s.reg x) (s.reg y))) := rfl

/-- R179. -/
theorem exec_sub (x y : Reg) (s : State) : exec (.sub x y) s =
    complete (s.advance.setRegThenFlag x (subResult (s.reg x) (s.reg y)) (notBorrow (s.reg x) (s.reg y))) := rfl

/-- R181. -/
theorem exec_rsb (x y : Reg) (s : State) : exec (.rsb x y) s =
    complete (s.advance.setRegThenFlag x (subResult (s.reg y) (s.reg x)) (notBorrow (s.reg y) (s.reg x))) := rfl

/-- R180. -/
theorem exec_shr (x y : Reg) (s : State) : exec (.shr x y) s = complete (s.advance.setRegThenFlag x
    (shiftRightResult (shiftOperand x y s)) (shiftRightOut (shiftOperand x y s))) := rfl

/-- R182. -/
theorem exec_shl (x y : Reg) (s : State) : exec (.shl x y) s = complete (s.advance.setRegThenFlag x
    (shiftLeftResult (shiftOperand x y s)) (shiftLeftOut (shiftOperand x y s))) := rfl

/-! ## Flags as bytes -/

/-- A flag is 1 where its condition holds. -/
theorem flagByte_eq_ite {b : Bool} {p : Prop} [Decidable p] (h : b = true ↔ p) :
    flagByte b = if p then 1 else 0 := by
  simp only [flagByte, h]

/-- R170: not borrow. -/
theorem notBorrow_iff (a b : Byte) : notBorrow a b = true ↔ b.toNat ≤ a.toNat := decide_eq_true_iff

/-! ## The statements -/

/-- Settles O31: the nine-bit sum's low byte and its top bit. -/
theorem addSetsTheCarry : Obligations.AddSetsTheCarry := by
  intro x y s
  obtain ⟨t, hexec, hresult, hflag, hrest⟩ :=
    complete_setRegThenFlag_frame x (addResult (s.reg x) (s.reg y)) (addCarry (s.reg x) (s.reg y)) s
  rw [exec_add]
  exact ⟨decodeWord_eq_of_wellFormed (append_eq_or_placeXY (by decide) x y) rfl, t, hexec,
    fun hx => by rw [hresult hx, addResult_toNat], by rw [hflag, flagByte_eq_ite (addCarry_iff _ _)], hrest⟩

/-- R179, R181: a difference of two registers, with not-borrow as its flag. -/
theorem complete_difference_frame (x : Reg) (a b : Byte) (s : State) :
    ∃ t, complete (s.advance.setRegThenFlag x (subResult a b) (notBorrow a b)) = .next t ∧
      (x ≠ vf → (t.reg x).toNat = (a.toNat + 256 - b.toNat) % 256) ∧
      t.reg vf = (if b.toNat ≤ a.toNat then 1 else 0) ∧
      (∀ r, r ≠ x → r ≠ vf → t.reg r = s.reg r) ∧ t.pc = s.pc + 2 ∧ Frame [.registers] s t := by
  obtain ⟨t, hexec, hresult, hflag, hrest⟩ := complete_setRegThenFlag_frame x (subResult a b) (notBorrow a b) s
  exact ⟨t, hexec, fun hx => by rw [hresult hx, subResult_toNat],
    by rw [hflag, flagByte_eq_ite (notBorrow_iff a b)], hrest⟩

/-- Settles O32: the same difference with the registers one way round and the other. -/
theorem subAndRsbSetNotBorrow : Obligations.SubAndRsbSetNotBorrow := by
  intro x y s
  rw [exec_sub, exec_rsb]
  exact ⟨⟨decodeWord_eq_of_wellFormed (append_eq_or_placeXY (by decide) x y) rfl, complete_difference_frame x _ _ s⟩,
    ⟨decodeWord_eq_of_wellFormed (append_eq_or_placeXY (by decide) x y) rfl, complete_difference_frame x _ _ s⟩⟩

/-- Settles O33: the shifted operand, and the bit that fell out. -/
theorem shiftsByOne : Obligations.ShiftsByOne := by
  intro x y s v hv
  have hoperand : shiftOperand x y s = v := hv.symm
  rw [exec_shr, exec_shl, hoperand]
  refine ⟨⟨decodeWord_eq_of_wellFormed (append_eq_or_placeXY (by decide) x y) rfl, ?_⟩,
    ⟨decodeWord_eq_of_wellFormed (append_eq_or_placeXY (by decide) x y) rfl, ?_⟩⟩
  · obtain ⟨t, hexec, hresult, hflag, hrest⟩ :=
      complete_setRegThenFlag_frame x (shiftRightResult v) (shiftRightOut v) s
    obtain ⟨hhalf, hout⟩ := shiftRight_toNat v
    exact ⟨t, hexec, fun hx => by rw [hresult hx, hhalf], by rw [hflag, hout], hrest⟩
  · obtain ⟨t, hexec, hresult, hflag, hrest⟩ :=
      complete_setRegThenFlag_frame x (shiftLeftResult v) (shiftLeftOut v) s
    obtain ⟨hdouble, hout⟩ := shiftLeft_toNat v
    exact ⟨t, hexec, fun hx => by rw [hresult hx, hdouble], by rw [hflag, hout], hrest⟩

/-! ## RND -/

/-- R183: RND is RND with the byte of this draw. -/
theorem exec_rnd (x : Reg) (nn : Byte) (s : State) :
    exec (.rnd x nn) s = rndWith (Config.drawByte s.draws) x nn s := rfl

/-- R184: RND with any byte drawn. -/
theorem rndWith_frame (b : Byte) (x : Reg) (nn : Byte) (s : State) :
    ∃ t, rndWith b x nn s = .next t ∧ (∀ k, (t.reg x).getLsbD k = (b.getLsbD k && nn.getLsbD k)) ∧
      (∀ r, r ≠ x → t.reg r = s.reg r) ∧ t.draws = s.draws + 1 ∧ t.pc = s.pc + 2 ∧
      Frame [.registers, .draws] s t := by
  have hwrites : WritesParts [.registers, .draws] s ((s.advance.setReg x (b &&& nn)).setDraws (s.draws + 1)) :=
    ((WritesOnly.advance s).setReg (by simp) _).setDraws (by simp) _
  exact ⟨_, complete_eq _, fun k => by simp, fun r hr => by simp [hr], rfl, rfl, hwrites.frame⟩

/-- Settles O34: the free byte is one of those for which RND is described. -/
theorem rndMasksADrawnByte : Obligations.RndMasksADrawnByte := by
  intro x nn s
  rw [exec_rnd]
  exact ⟨decodeWord_eq_of_wellFormed (append_eq_or_placeXI (by decide) x nn) rfl, rndWith_frame _ x nn s, rfl,
    fun b => rndWith_frame b x nn s⟩

end Sys2Proof.Machine
end

section
/-! PROOFS. DRW: the sprite XORed into the display, and the same sprite drawn twice (42_display R202, R203). -/

namespace Sys2Proof.Machine

/-- R202: the sprite's origin is taken modulo the size of the display, so the registers may be used unreduced. -/
theorem spriteLights_mod (bytes : List Byte) (x0 y0 : Nat) (y : Fin 32) (x : Fin 64) :
    spriteLights bytes (x0 % 64) (y0 % 32) y x = spriteLights bytes x0 y0 y x := by
  have hrow : rowOffset (y0 % 32) y = rowOffset y0 y := by simp only [rowOffset, Nat.mod_mod]
  have hcolumn : columnOffset (x0 % 64) x = columnOffset x0 x := by simp only [columnOffset, Nat.mod_mod]
  have hbyte : ∀ b, byteLights b (x0 % 64) x = byteLights b x0 x := fun b => by rw [byteLights, byteLights, hcolumn]
  simp only [spriteLights, hrow, hbyte]

/-- R64: the bytes of a sprite are at most fifteen. -/
theorem length_sprite_le (m : Memory) (base : Nat) (n : Nibble) : (m.readBytes base n.toNat).length ≤ 15 := by
  rw [Memory.length_readBytes]; omega

/-- R202: DRW XORs every pixel with the sprite's. -/
theorem spriteOutcome_pixel (x y : Reg) (n : Nibble) (s : State) (py : Fin 32) (px : Fin 64) :
    (spriteOutcome x y n s).1.pixel py px = (s.display.pixel py px ^^
      spriteLights (s.mem.readBytes (dataAddress s) n.toNat) (s.reg x).toNat (s.reg y).toNat py px) := by
  rw [spriteOutcome, drawSprite_pixel _ _ _ _ (length_sprite_le _ _ n), spriteColumn, spriteRow, spriteLights_mod]

/-- R202: DRW collides where the sprite meets a set pixel. -/
theorem spriteOutcome_collision (x y : Reg) (n : Nibble) (s : State) :
    (spriteOutcome x y n s).2 = true ↔ ∃ py px, s.display.pixel py px = true ∧
      spriteLights (s.mem.readBytes (dataAddress s) n.toNat) (s.reg x).toNat (s.reg y).toNat py px = true := by
  rw [spriteOutcome, drawSprite_collision _ _ _ _ (length_sprite_le _ _ n), spriteColumn, spriteRow]
  simp only [spriteLights_mod, and_comm]

/-- A flag byte is 1 exactly where the flag is set. -/
theorem flagByte_eq_one_iff (b : Bool) : flagByte b = 1 ↔ b = true := by cases b <;> decide

/-- A flag byte is 0 or 1. -/
theorem flagByte_eq_zero_or_one (b : Bool) : flagByte b = 0 ∨ flagByte b = 1 := by cases b <;> decide

/-- R202: what DRW leaves, of a sprite in bounds. -/
theorem exec_drw_frame (x y : Reg) {n : Nibble} {s : State} (h : inBounds (dataAddress s) n.toNat = true) :
    ∃ t, exec (.drw x y n) s = .next t ∧ t.display = (spriteOutcome x y n s).1 ∧
      t.reg vf = flagByte (spriteOutcome x y n s).2 ∧ (∀ r, r ≠ vf → t.reg r = s.reg r) ∧ t.pc = s.pc + 2 ∧
      Frame [.display, .registers] s t := by
  have hwrites : WritesParts [.display, .registers] s ((s.advance.setDisplay (spriteOutcome x y n s).1).setReg vf
      (flagByte (spriteOutcome x y n s).2)) := ((WritesOnly.advance s).setDisplay (by simp) _).setReg (by simp) _
  exact ⟨_, (exec_drw_of_inBounds x y h).trans (complete_eq _), rfl, by simp, fun r hr => by simp [hr], rfl,
    hwrites.frame⟩

/-- Settles O36: a sprite in bounds is XORed in, and VF is its collision. -/
theorem drwXorsTheSprite : Obligations.DrwXorsTheSprite := by
  intro x y n s
  refine ⟨decodeWord_eq_of_wellFormed (append_eq_or_placeXYN (by decide) x y n) rfl, fun hrange => ?_⟩
  have hbounds : inBounds (dataAddress s) n.toNat = true :=
    (inBounds_iff _ _).mpr (hrange.imp_left (fun h => congrArg BitVec.toNat h))
  obtain ⟨t, hexec, hdisplay, hvf, hrest⟩ := exec_drw_frame x y hbounds
  refine ⟨t, hexec, fun py px => ?_, ?_, ?_, hrest⟩
  · rw [hdisplay, spriteOutcome_pixel]
  · rw [hvf]; exact flagByte_eq_zero_or_one _
  · rw [hvf, flagByte_eq_one_iff, spriteOutcome_collision]

/-- R203 (a): XOR with the same sprite twice is nothing. -/
theorem drawSprite_twice (x0 y0 : Nat) (bytes : List Byte) (d : Display) (h : bytes.length ≤ 15) :
    (drawSprite x0 y0 bytes (drawSprite x0 y0 bytes d).1).1 = d := by
  refine Display.ext_pixel fun y x => ?_
  rw [drawSprite_pixel _ _ _ _ h, drawSprite_pixel _ _ _ _ h, Bool.xor_assoc, Bool.xor_self, Bool.xor_false]

/-- Memories that read the same give the same bytes. -/
theorem readBytes_congr {m m' : Memory} (h : ∀ a, m'.read a = m.read a) (base n : Nat) :
    m'.readBytes base n = m.readBytes base n := by
  refine List.ext_getElem (by simp) fun k _ _ => ?_
  rw [Memory.getElem_readBytes, Memory.getElem_readBytes, h]

/-- R203 (a): after a DRW whose coordinates are not in VF, the same DRW draws the same bytes at the same place, and so
gives the first display back. -/
theorem spriteOutcome_twice {x y : Reg} {n : Nibble} {s t : State} (hx : x ≠ vf) (hy : y ≠ vf)
    (hreg : ∀ r, r ≠ vf → t.reg r = s.reg r) (hi : t.i = s.i) (hmem : Part.memory.Same s t)
    (hdisplay : t.display = (spriteOutcome x y n s).1) : (spriteOutcome x y n t).1 = s.display := by
  have hbytes : t.mem.readBytes (dataAddress t) n.toNat = s.mem.readBytes (dataAddress s) n.toNat := by
    rw [dataAddress, hi, ← dataAddress, readBytes_congr hmem]
  rw [spriteOutcome, spriteColumn, spriteRow, hreg x hx, hreg y hy, hbytes, hdisplay]
  exact drawSprite_twice _ _ _ _ (length_sprite_le _ _ n)

/-- Settles O37: the second DRW undoes the first; where the first faults so does the second, and nothing is drawn. -/
theorem drawingTwiceRestoresTheDisplay : Obligations.DrawingTwiceRestoresTheDisplay := by
  refine ⟨drawSprite_twice, fun x y n s t u hx hy ht hu => ?_⟩
  by_cases hbounds : inBounds (dataAddress s) n.toNat = true
  · obtain ⟨t', hexec, hdisplay, -, hreg, -, hparts, -⟩ := exec_drw_frame x y hbounds
    obtain rfl : t' = t := by injection hexec.symm.trans ht
    have hi : t'.i = s.i := hparts .index (by simp)
    have hbounds' : inBounds (dataAddress t') n.toNat = true := by rwa [dataAddress, hi]
    obtain ⟨u', hexec', hdisplay', -⟩ := exec_drw_frame x y hbounds'
    obtain rfl : u' = u := by injection hexec'.symm.trans hu
    rw [hdisplay', spriteOutcome_twice hx hy hreg hi (hparts .memory (by simp)) hdisplay]
  · have ht' : t = faulted .memoryOutOfBounds (encode (.drw x y n)) s :=
      (raise_eq_next _ _ _ _).mp ((exec_drw_of_not_inBounds x y hbounds).symm.trans ht)
    subst ht'
    have hu' := (raise_eq_next _ _ _ _).mp ((exec_drw_of_not_inBounds (s := faulted _ _ s) x y hbounds).symm.trans hu)
    rw [hu']
    rfl

end Sys2Proof.Machine
end

section
/-! PROOFS. Keys, the key wait and the timers' registers (43_keypad_timers R220 to R226). -/

namespace Sys2Proof.Machine

/-- R221: the word EX9E. -/
theorem append_eq_encode_skp (x : Reg) : 0xE#4 ++ x ++ 0x9E#8 = encode (.skp x) :=
  append_eq_or_placeXF (p := 0xE09E) (by decide) x

/-- R222: the word EXA1. -/
theorem append_eq_encode_sknp (x : Reg) : 0xE#4 ++ x ++ 0xA1#8 = encode (.sknp x) :=
  append_eq_or_placeXF (p := 0xE0A1) (by decide) x

/-- Settles O38: the two skips on a key's level, and the fault on what numbers no key. -/
theorem keySkips : Obligations.KeySkips := by
  intro x s k hk
  subst hk
  rw [append_eq_encode_skp, append_eq_encode_sknp]
  refine ⟨decodeWord_encode rfl, decodeWord_encode rfl, fun hle => ?_, fun hlt => ?_⟩
  · rw [exec_skp_of_le hle, exec_sknp_of_le hle]
    refine ⟨complete_skipIf_frame _ s, ?_⟩
    obtain ⟨t, hexec, hpc, hframe⟩ := complete_skipIf_frame (!s.key.getLsbD (s.reg x).toNat) s
    refine ⟨t, hexec, ?_, hframe⟩
    rw [hpc]
    cases s.key.getLsbD (s.reg x).toNat <;> rfl
  · exact ⟨exec_skp_of_lt hlt, exec_sknp_of_lt hlt⟩

/-- Settles O39: KEY finds the lowest latched key, or goes back to itself. -/
theorem keyWaitsForAPress : Obligations.KeyWaitsForAPress := by
  intro x s
  refine ⟨decodeWord_eq_of_wellFormed (append_eq_or_placeXF (by decide) x) rfl, fun k hk hset hlower => ?_,
    fun hnone => ?_⟩
  · rw [exec_key_of_some x (lowestPressed_eq_some.mpr ⟨hk, hset, hlower⟩)]
    exact complete_setReg_frame x _ s
  · rw [exec_key_of_none x (lowestPressed_eq_none.mpr hnone), complete_eq]

/-! ## The timers -/

/-- R224: what GDT does to the state. -/
theorem exec_gdt (x : Reg) (s : State) : exec (.gdt x) s = complete (s.advance.setReg x s.dt) := rfl

/-- R225: what SDT does to the state. -/
theorem exec_sdt (x : Reg) (s : State) : exec (.sdt x) s = complete (s.advance.setDt (s.reg x)) := rfl

/-- R226: what SST does to the state. -/
theorem exec_sst (x : Reg) (s : State) : exec (.sst x) s = complete (s.advance.setSt (s.reg x)) := rfl

/-- R287: the signal is on while ST is not 0. -/
theorem beep_eq (s : State) : beep s = decide (s.st ≠ 0) := by
  rw [beep, decide_eq_decide, Nat.pos_iff_ne_zero, ne_eq, ne_eq, ← BitVec.toNat_inj]
  rfl

/-- Settles O40: each moves one byte between a register and a timer. -/
theorem timerTransfers : Obligations.TimerTransfers := by
  intro x s
  have hdt : WritesParts [.delayTimer] s (s.advance.setDt (s.reg x)) := (WritesOnly.advance s).setDt (by simp) _
  have hst : WritesParts [.soundTimer] s (s.advance.setSt (s.reg x)) := (WritesOnly.advance s).setSt (by simp) _
  rw [exec_gdt, exec_sdt, exec_sst]
  exact ⟨⟨decodeWord_eq_of_wellFormed (append_eq_or_placeXF (by decide) x) rfl, complete_setReg_frame x s.dt s⟩,
    ⟨decodeWord_eq_of_wellFormed (append_eq_or_placeXF (by decide) x) rfl, _, complete_eq _, rfl, rfl, hdt.frame⟩,
    ⟨decodeWord_eq_of_wellFormed (append_eq_or_placeXF (by decide) x) rfl, _, complete_eq _, rfl, beep_eq _, rfl,
      hst.frame⟩⟩

end Sys2Proof.Machine
end

section
/-! PROOFS. The index register and the memory instructions (44_index_memory R240 to R247), their bounds (20_memory R66)
and code stored where it is fetched (20_memory R74). -/

namespace Sys2Proof.Machine

/-! ## The index register -/

/-- A cycle that completes after the advance and a write of `I` changes `I` alone. -/
theorem complete_setI_frame (v : Word) (s : State) :
    ∃ t, complete (s.advance.setI v) = .next t ∧ t.i = v ∧ t.pc = s.pc + 2 ∧ Frame [.index] s t := by
  have hwrites : WritesParts [.index] s (s.advance.setI v) := (WritesOnly.advance s).setI (by simp) v
  exact ⟨_, complete_eq _, rfl, rfl, hwrites.frame⟩

/-- R240: what LDA does to the state. -/
theorem exec_lda (nnn : Addr) (s : State) : exec (.lda nnn) s = complete (s.advance.setI (absolute nnn)) := rfl

/-- R241: what ADX does to the state. -/
theorem exec_adx (x : Reg) (s : State) : exec (.adx x) s =
    complete ((s.advance.setI (indexResult s.i (s.reg x))).indexFlag (indexOverflow s.i (s.reg x))) := rfl

/-- Settles O41: LDA writes a zero-extended address to `I`. -/
theorem ldaLoadsTheAddress : Obligations.LdaLoadsTheAddress := by
  intro nnn s
  obtain ⟨t, hexec, hi, hrest⟩ := complete_setI_frame (absolute nnn) s
  rw [exec_lda]
  exact ⟨decodeWord_eq_of_wellFormed (append_eq_or_placeA (by decide) nnn) rfl, t, hexec,
    by rw [hi, absolute_toNat], hrest⟩

/-- D18: the overflow is that of the full sum. -/
theorem indexOverflow_iff (i : Word) (v : Byte) : indexOverflow i v = true ↔ 0xFFF < i.toNat + v.toNat :=
  decide_eq_true_iff

/-- R241, R242: VF after the policy, in the two booleans of R32. -/
theorem indexFlag_vf (o : Bool) (s : State) : (s.indexFlag o).reg vf =
    if s.cfg.indexOverflowFlag then flagByte o else if s.cfg.indexVfFlush then 0 else s.reg vf := by
  rw [State.indexFlag_reg, if_pos rfl, Config.indexOverflowFlag, Config.indexVfFlush]
  cases s.cfg.indexPolicy <;> rfl

/-- Settles O42: the masked sum in `I`, and VF by the policy. -/
theorem adxMasksToTwelveBits : Obligations.AdxMasksToTwelveBits := by
  intro x s
  have hwrites : WritesParts [.index, .registers] s
      ((s.advance.setI (indexResult s.i (s.reg x))).indexFlag (indexOverflow s.i (s.reg x))) :=
    ((WritesOnly.advance s).setI (by simp) _).indexFlag (fun _ => by simp) _
  rw [exec_adx]
  refine ⟨decodeWord_eq_of_wellFormed (append_eq_or_placeXF (by decide) x) rfl, _, complete_eq _, ?_, ?_,
    fun r hr => ?_, ?_, hwrites.frame⟩
  · rw [State.setIter_i, State.indexFlag_eq, State.setRegs_i, State.setI_i, indexResult_toNat]
  · rw [State.setIter_reg, indexFlag_vf, flagByte_eq_ite (indexOverflow_iff _ _)]
    rfl
  · rw [State.setIter_reg, State.indexFlag_reg, if_neg hr]
    rfl
  · rw [State.setIter_pc, State.indexFlag_eq]
    rfl

/-- Settles O43: a digit's glyph lies five bytes on from the one before. -/
theorem fntPointsAtAGlyph : Obligations.FntPointsAtAGlyph := by
  intro x s
  refine ⟨decodeWord_eq_of_wellFormed (append_eq_or_placeXF (by decide) x) rfl, fun hdigit => ?_⟩
  obtain ⟨t, hexec, hi, hrest⟩ := complete_setI_frame (glyphAddress s.cfg (s.reg x).toNat) s
  rw [exec_fnt_of_le hdigit]
  exact ⟨t, hexec, by rw [hi, glyphAddress_toNat _ hdigit], hrest⟩

/-- Settles O44: more than a hexadecimal digit is refused. -/
theorem fntAbove15IsRefused : Obligations.FntAbove15IsRefused := fun _ _ h => exec_fnt_of_lt h

/-! ## BCD -/

/-- R64: a byte of those written reads back. -/
theorem read_writeBytes_add (m : Memory) (base : Nat) (bs : List Byte) {k : Nat} (hk : k < bs.length) :
    (m.writeBytes base bs).read (base + k) = bs[k] := by
  rw [Memory.read_writeBytes, dif_pos ⟨Nat.le_add_right _ _, by omega⟩]
  simp only [Nat.add_sub_cancel_left]

/-- What is no more than a byte's value is a byte's value. -/
theorem ofNat_toNat_of_le {n : Nat} {v : Byte} (h : n ≤ v.toNat) : (BitVec.ofNat 8 n).toNat = n := by
  rw [BitVec.toNat_ofNat]; omega

/-- R244: the three digits read back, hundreds first. -/
theorem read_writeBytes_decimalDigits (m : Memory) (base : Nat) (v : Byte) :
    ((m.writeBytes base (decimalDigits v)).read base).toNat = v.toNat / 100 ∧
    ((m.writeBytes base (decimalDigits v)).read (base + 1)).toNat = v.toNat / 10 % 10 ∧
    ((m.writeBytes base (decimalDigits v)).read (base + 2)).toNat = v.toNat % 10 := by
  have hdigit : ∀ k (hk : k < 3), (m.writeBytes base (decimalDigits v)).read (base + k) = (decimalDigits v)[k] :=
    fun _ hk => read_writeBytes_add m base (decimalDigits v) hk
  exact ⟨(congrArg BitVec.toNat (hdigit 0 (by decide))).trans (ofNat_toNat_of_le (v := v) (by omega)),
    (congrArg BitVec.toNat (hdigit 1 (by decide))).trans (ofNat_toNat_of_le (v := v) (by omega)),
    (congrArg BitVec.toNat (hdigit 2 (by decide))).trans (ofNat_toNat_of_le (v := v) (by omega))⟩

/-- Settles O45: the three digits are written at `I`. -/
theorem bcdStoresThreeDigits : Obligations.BcdStoresThreeDigits := by
  intro x s
  refine ⟨decodeWord_eq_of_wellFormed (append_eq_or_placeXF (by decide) x) rfl, fun hrange => ?_⟩
  have hbounds : inBounds (dataAddress s) 3 = true := (inBounds_iff _ _).mpr (.inr (by omega))
  have hwrites : WritesParts [.memory] s
      (s.advance.setMem (s.mem.writeBytes (dataAddress s) (decimalDigits (s.reg x)))) :=
    (WritesOnly.advance s).setMem (by simp) _
  obtain ⟨hhundreds, htens, hones⟩ := read_writeBytes_decimalDigits s.mem (dataAddress s) (s.reg x)
  rw [exec_bcd_of_inBounds x hbounds]
  exact ⟨_, complete_eq _, hhundreds, htens, hones,
    fun a ha => Memory.read_writeBytes_outside _ _ _ _ (ha.imp_right Nat.succ_le_of_lt), rfl, hwrites.frame⟩

/-! ## STM and LDM -/

/-- R245: the word FX55. -/
theorem append_eq_encode_stm (x : Reg) : 0xF#4 ++ x ++ 0x55#8 = encode (.stm x) :=
  append_eq_or_placeXF (p := 0xF055) (by decide) x

/-- R246: the word FX65. -/
theorem append_eq_encode_ldm (x : Reg) : 0xF#4 ++ x ++ 0x65#8 = encode (.ldm x) :=
  append_eq_or_placeXF (p := 0xF065) (by decide) x

/-- R245, R247: what STM leaves, of a range in bounds. -/
theorem exec_stm_frame {x : Reg} {s : State} (h : dataAddress s + x.toNat ≤ 0xFFF) :
    ∃ t, exec (.stm x) s = .next t ∧ t.mem = s.mem.writeBytes (dataAddress s) (s.regsUpTo x) ∧
      t.i.toNat = (if s.cfg.dumpIncrementsI then s.i.toNat + x.toNat + 1 else s.i.toNat) ∧ t.pc = s.pc + 2 ∧
      Frame [.memory, .index] s t := by
  have hwrites : WritesParts [.memory, .index] s
      ((s.advance.setMem (s.mem.writeBytes (dataAddress s) (s.regsUpTo x))).dumpIncrement x) :=
    ((WritesOnly.advance s).setMem (by simp) _).dumpIncrement (fun _ => by simp) x
  refine ⟨_, (exec_stm_of_inBounds (inBounds_rangeLength_iff.mpr h)).trans (complete_eq _), ?_, ?_, ?_, hwrites.frame⟩
  · rw [State.dumpIncrement_eq]; rfl
  · exact dumpIncrement_i_toNat (s := s.advance.setMem _) h
  · rw [State.dumpIncrement_eq]; rfl

/-- R245: where STM's registers are read back. -/
theorem read_writeBytes_regsUpTo (m : Memory) (base : Nat) (s : State) {x j : Reg} (hj : j.toNat ≤ x.toNat) :
    (m.writeBytes base (s.regsUpTo x)).read (base + j.toNat) = s.reg j := by
  rw [read_writeBytes_add _ _ _ (by rw [State.length_regsUpTo]; omega), State.getElem_regsUpTo]
  simp

/-- Settles O46: the registers are written at `I`, and `I` moves under the quirk. -/
theorem stmStoresTheRange : Obligations.StmStoresTheRange := by
  intro x s
  refine ⟨decodeWord_eq_of_wellFormed (append_eq_encode_stm x) rfl, fun hrange => ?_⟩
  obtain ⟨t, hexec, hmem, hrest⟩ := exec_stm_frame hrange
  refine ⟨t, hexec, fun j hj => ?_, fun a ha => ?_, hrest⟩
  · rw [hmem, read_writeBytes_regsUpTo _ _ _ hj]
  · rw [hmem]
    refine Memory.read_writeBytes_outside _ _ _ _ (ha.imp_right fun h => ?_)
    rw [State.length_regsUpTo]; omega

/-- R246: what every register holds after the load. -/
theorem loadRegs_readBytes_reg (s : State) (m : Memory) (base : Nat) (x r : Reg) :
    (s.loadRegs 0 (m.readBytes base (rangeLength x))).reg r =
      if r.toNat ≤ x.toNat then m.read (base + r.toNat) else s.reg r := by
  rw [State.loadRegs_reg _ _ _ (by rw [Memory.length_readBytes, rangeLength]; omega)]
  simp [rangeLength]

/-- Settles O47: the bytes at `I` are read into the registers, and `I` moves under the quirk. -/
theorem ldmLoadsTheRange : Obligations.LdmLoadsTheRange := by
  intro x s
  refine ⟨decodeWord_eq_of_wellFormed (append_eq_encode_ldm x) rfl, fun hrange => ?_⟩
  have hwrites : WritesParts [.registers, .index] s
      ((s.advance.loadRegs 0 (s.mem.readBytes (dataAddress s) (rangeLength x))).dumpIncrement x) := by
    refine ((WritesOnly.advance s).loadRegs ?_ fun _ _ _ => by simp).dumpIncrement (fun _ => by simp) x
    rw [Memory.length_readBytes, rangeLength]; omega
  refine ⟨_, (exec_ldm_of_inBounds (inBounds_rangeLength_iff.mpr hrange)).trans (complete_eq _), fun r => ?_, ?_, ?_,
    hwrites.frame⟩
  · rw [State.setIter_reg, State.dumpIncrement_eq, State.setI_reg, loadRegs_readBytes_reg, State.advance_reg]
  · rw [State.loadRegs_eq]
    exact dumpIncrement_i_toNat (s := s.advance.setRegs _) hrange
  · rw [State.dumpIncrement_eq, State.loadRegs_eq]; rfl

/-! ## Bounds, and stored code -/

/-- Settles O48: the check comes before the writes. -/
theorem outOfBoundsAccessFaults : Obligations.OutOfBoundsAccessFaults := by
  intro x y n s
  refine ⟨fun hn hrange => ?_, fun hrange => ?_, fun hrange => ?_⟩
  · have hn' : n.toNat ≠ 0 := fun h => hn (BitVec.eq_of_toNat_eq h)
    have hbounds : ¬ inBounds (dataAddress s) n.toNat = true := by rw [inBounds_iff]; omega
    rw [append_eq_or_placeXYN (p := 0xD000) (by decide)]
    exact exec_drw_of_not_inBounds x y hbounds
  · have hbounds : ¬ inBounds (dataAddress s) 3 = true := by rw [inBounds_iff]; omega
    rw [append_eq_or_placeXF (p := 0xF033) (by decide)]
    exact exec_bcd_of_not_inBounds x hbounds
  · have hbounds : ¬ inBounds (dataAddress s) (rangeLength x) = true := by
      rw [inBounds_rangeLength_iff]; exact not_le_of_gt hrange
    rw [append_eq_encode_stm, append_eq_encode_ldm]
    exact ⟨exec_stm_of_not_inBounds hbounds, exec_ldm_of_not_inBounds hbounds⟩

/-- Settles O49: the fetch reads the memory that STM wrote. -/
theorem storedCodeIsFetched : Obligations.StoredCodeIsFetched := by
  intro x j k s t hexec hrange hk hkx hpc
  obtain ⟨t', hexec', hmem, -⟩ := exec_stm_frame hrange
  obtain rfl : t' = t := by injection hexec'.symm.trans hexec
  have hnext : dataAddress s + j.toNat + 1 = dataAddress s + k.toNat := by omega
  rw [State.fetchWord, hpc, hnext, hmem, read_writeBytes_regsUpTo _ _ _ (by omega), read_writeBytes_regsUpTo _ _ _ hkx]
  rfl

end Sys2Proof.Machine
end

section
/-! PROOFS. The host's moves: ticks and calls, the input poll, reset, program load and memory writes
(60_exceptions R284, R287; 40_cycle_control R132; 10_state R36, R37, R40; 70_reset R310 to R314; 20_memory R75). -/

namespace Sys2Proof.Machine

/-- A step with a move pending is that move, with the moves after it left. -/
theorem step_of_move {s : State} {m : HostMove} {rest : List HostMove} (h : s.agenda = m :: rest) :
    step s = applyMove m (s.setAgenda rest) := by
  simp only [step, nextMove, h]

/-! ## Ticks (R284) -/

/-- R284: a count goes down and stops at 0. -/
theorem countDown_toNat (v : Byte) (k : Nat) : (countDown v k).toNat = v.toNat - k :=
  ofNat_toNat_of_le (Nat.sub_le _ _)

/-- R284: counting down twice is counting down by the sum. -/
theorem countDown_add (v : Byte) (j k : Nat) : countDown v (j + k) = countDown (countDown v j) k := by
  apply BitVec.eq_of_toNat_eq
  rw [countDown_toNat, countDown_toNat, countDown_toNat, Nat.sub_add_eq]

/-- R284: a tick of an engine that is not halted. -/
theorem tick_of_none {s : State} (h : s.fault = none) (k : Nat) :
    tick k s = (s.setDt (countDown s.dt k)).setSt (countDown s.st k) := by
  simp only [tick, h]

/-- R279: a halted engine does not tick. -/
theorem tick_of_some {s : State} {r : FaultRecord} (h : s.fault = some r) (k : Nat) : tick k s = s := by
  simp only [tick, h]

/-- Settles O50: both timers count down and nothing else is written. -/
theorem ticksCountDownToZero : Obligations.TicksCountDownToZero := by
  refine ⟨fun k s h => ?_, fun j k s => ?_, fun s => decide_eq_true_iff⟩
  · rw [tick_of_none h]
    exact ⟨countDown_toNat _ _, countDown_toNat _ _, rfl⟩
  · cases h : s.fault with
    | none =>
      have hj : (tick j s).fault = none := by rw [tick_of_none h]; exact h
      rw [tick_of_none hj, tick_of_none h, tick_of_none h, countDown_add, countDown_add]
      rfl
    | some r => rw [tick_of_some h, tick_of_some h, tick_of_some h]

/-! ## Calls (R132) -/

/-- R132: a call ticks, and its cycles come next. -/
theorem step_of_call {s : State} {k n : Nat} {rest : List HostMove} (hfault : s.fault = none)
    (h : s.agenda = .call k n :: rest) :
    step s = .next ((tick k s).setAgenda (List.replicate n .cycle ++ rest)) := by
  rw [step_of_move h]
  simp only [applyMove, State.setAgenda_fault, hfault, tick]
  rfl

/-- R132: a cycle of a call is used up; if it leaves the latch clear it was clear before, and the cycle is counted. -/
theorem step_of_cycle {s t : State} {rest : List HostMove} (h : s.agenda = .cycle :: rest) (hstep : step s = .next t) :
    t.agenda = rest ∧ (t.fault = none → s.fault = none ∧ t.iter = s.iter + 1) := by
  by_cases hfault : s.fault = none
  · have hcycle := (step_of_cycleIsNext (.inr h) hfault).symm.trans hstep
    rcases cycle_result (s := s.setAgenda rest) hfault hcycle with ⟨-, hiter, hinputs⟩ | ⟨kind, op, rfl, -⟩
    · obtain ⟨-, -, -, hagenda⟩ := hinputs
      exact ⟨hagenda, fun _ => ⟨hfault, hiter⟩⟩
    · exact ⟨rfl, fun hclear => nomatch hclear⟩
  · obtain rfl : s.setAgenda rest = t := by injection (step_halted hfault (.inl rfl) h).symm.trans hstep
    exact ⟨rfl, fun hclear => absurd hclear hfault⟩

/-- R132: `n` cycles of a call are used up; if the latch is clear after them it always was, and each is counted. -/
theorem run_cycles {n : Nat} {s t : State} {rest : List HostMove} (h : s.agenda = List.replicate n .cycle ++ rest)
    (hrun : Host.Core.run Sys2Proof.core n s = .next t) :
    t.agenda = rest ∧ (t.fault = none → s.fault = none ∧ t.iter = s.iter + n) := by
  induction n generalizing s with
  | zero =>
    obtain rfl : s = t := by injection hrun
    exact ⟨h, fun hclear => ⟨hclear, rfl⟩⟩
  | succ n ih =>
    rw [core_run_succ] at hrun
    cases hstep : step s with
    | next u =>
      rw [hstep] at hrun
      obtain ⟨hagenda, hcount⟩ := step_of_cycle (rest := List.replicate n .cycle ++ rest) h hstep
      obtain ⟨hrest, hcounts⟩ := ih hagenda hrun
      refine ⟨hrest, fun hclear => ?_⟩
      obtain ⟨hclear', hiter⟩ := hcounts hclear
      obtain ⟨hclear'', hiter'⟩ := hcount hclear'
      exact ⟨hclear'', by omega⟩
    | fault r => rw [hstep] at hrun; cases hrun
    | refused r => rw [hstep] at hrun; cases hrun

/-- Settles O51: the call's first step puts its cycles in front, and they are used up one by one. -/
theorem callTicksThenRunsItsCycles : Obligations.CallTicksThenRunsItsCycles := by
  refine ⟨fun s k n rest => step_of_call, fun s t k n rest hfault h hrun => ?_⟩
  rw [core_run_succ, step_of_call hfault h] at hrun
  obtain ⟨hrest, hcounts⟩ := run_cycles (rest := rest) rfl hrun
  refine ⟨hrest, fun hclear => ?_⟩
  rw [(hcounts hclear).2, tick_of_none hfault]
  rfl

/-! ## The input poll (R36, R37) -/

/-- Settles O52: the poll writes the levels, and latches levels that rose and presses reported. -/
theorem pollLatchesTheEdges : Obligations.PollLatchesTheEdges := by
  intro s levels presses rest h
  refine ⟨poll levels presses (s.setAgenda rest), step_of_move h, rfl, fun k hk => ?_, rfl, ?_⟩
  · simp [poll, hk]
  · simp only [poll, State.setKey, State.setJust, State.setAgenda]

/-! ## Reset (R40, R310 to R313) -/

/-- R70: beyond its 80 bytes a font holds nothing. -/
theorem fontByte_of_le {j : Nat} (h : 80 ≤ j) (f : Font) : fontByte f j = 0 := dif_neg (not_lt_of_ge h)

/-- R40, R70: what an unlisted address reads as, with its upper bound. -/
theorem background_eq (a : Nat) : Memory.background a =
    if 0x050 ≤ a ∧ a < 0x0A0 then fontByte defaultFont (a - 0x050) else 0 := by
  rw [Memory.background]
  split_ifs with hlow hrange hrange
  · rfl
  · exact fontByte_of_le (by omega) _
  · exact absurd hrange.1 hlow
  · rfl

/-- R40: every register is 0 after a reset. -/
theorem reset_reg (r : Reg) : State.reset.reg r = 0 := by
  revert r; decide

/-- R40: every slot of the stack is 0 after a reset. -/
theorem reset_stack (k : Fin 16) : State.reset.stack[k] = 0 := by
  revert k; decide

/-- Settles O53: the values of the reset state, which lists no byte of memory. -/
theorem resetState : Obligations.ResetState := by
  refine ⟨rfl, rfl, rfl, rfl, rfl, rfl, rfl, rfl, rfl, reset_reg, reset_stack, Display.pixel_blank, background_eq, ?_,
    rfl, rfl, rfl, rfl, rfl, rfl, rfl, ?_⟩
  · decide
  · decide

/-- R312: the zeros written over the default font leave no byte of memory set. -/
theorem clearedMemory_read (a : Nat) : (Memory.writeBytes [] 0x050 (List.replicate 80 0)).read a = 0 := by
  rw [Memory.read_writeBytes]
  split_ifs with h
  · exact List.getElem_replicate _
  · rw [List.length_replicate] at h
    rw [Memory.read, background_eq, if_neg (by omega)]

/-- R312: memory after a reset holds the font, and zero elsewhere. -/
theorem resetMemory_read (c : Config) (a : Nat) : (resetMemory c).read a =
    if c.fontOrigin.toNat ≤ a ∧ a < c.fontOrigin.toNat + 80 then fontByte c.fontData (a - c.fontOrigin.toNat)
    else 0 := by
  have hlength : (fontBytes c.fontData).length = 80 := by rw [fontBytes, List.length_map, List.length_range]
  rw [resetMemory, Memory.read_writeBytes]
  by_cases h : c.fontOrigin.toNat ≤ a ∧ a < c.fontOrigin.toNat + 80
  · rw [dif_pos ⟨h.1, by omega⟩, if_pos h]
    simp only [fontBytes, List.getElem_map, List.getElem_range]
  · rw [dif_neg (by omega), if_neg h, clearedMemory_read]

/-- R32, R313: both index quirks can be read back from the one field, unless both are presented (log 6). -/
theorem latchedConfig_quirks {p : ResetInputs} (h : ¬ (p.quirkIndexOverflowFlag = true ∧ p.quirkIndexVfFlush = true)) :
    (latchedConfig p).indexOverflowFlag = p.quirkIndexOverflowFlag ∧
      (latchedConfig p).indexVfFlush = p.quirkIndexVfFlush := by
  simp only [latchedConfig, Config.indexOverflowFlag, Config.indexVfFlush]
  cases ho : p.quirkIndexOverflowFlag <;> cases hf : p.quirkIndexVfFlush <;> simp_all

/-- Settles O54: legal inputs are latched by `initialise`, and others are refused. -/
theorem hostResetLatchesAndClears : Obligations.HostResetLatchesAndClears := by
  intro s p rest h
  have hstep := step_of_move h
  simp only [applyMove, latch_eq] at hstep
  refine ⟨fun hfont hquirks => ?_, fun hillegal => ?_⟩
  · rw [if_pos ⟨hfont, hquirks⟩] at hstep
    obtain ⟨hoverflow, hflush⟩ := latchedConfig_quirks hquirks
    exact ⟨_, hstep, absolute_toNat _, rfl, rfl, rfl, rfl, rfl, rfl, rfl, rfl, reset_reg, reset_stack,
      Display.pixel_blank, resetMemory_read _, rfl, hoverflow, hflush, rfl, rfl, rfl, rfl, rfl, rfl⟩
  · rwa [if_neg fun ⟨hfont, hquirks⟩ => hillegal.elim (not_lt_of_ge hfont) hquirks] at hstep

/-! ## Load and write (R314, R75) -/

/-- R314: an image fits that is of even length and not too long. -/
theorem imageFits_iff (c : Config) (image : List Byte) : imageFits c image = true ↔
    image.length % 2 = 0 ∧ image.length ≤ 4096 - c.programOrigin.toNat := by
  rw [imageFits, Bool.and_eq_true, decide_eq_true_iff, decide_eq_true_iff, memSize]

/-- Settles O55: an image that fits is written from the origin on, and a host write writes its byte. -/
theorem hostLoadsAndWrites : Obligations.HostLoadsAndWrites := by
  refine ⟨fun s image rest h => ?_, fun s address v rest h =>
    ⟨_, step_of_move h, fun a => Memory.read_write _ _ _ a, rfl, rfl⟩⟩
  have hstep := step_of_move h
  have hfits : imageFits (s.setAgenda rest).cfg image = true ↔
      image.length % 2 = 0 ∧ image.length ≤ 4096 - s.cfg.programOrigin.toNat := imageFits_iff s.cfg image
  simp only [applyMove] at hstep
  refine ⟨fun heven hsize => ?_, fun hmalformed => ?_⟩
  · rw [if_pos (hfits.mpr ⟨heven, hsize⟩)] at hstep
    exact ⟨_, hstep, fun j hj => read_writeBytes_add _ _ _ hj,
      fun a ha => Memory.read_writeBytes_outside _ _ _ _ ha, rfl, rfl⟩
  · rwa [if_neg (by rw [hfits]; omega)] at hstep

end Sys2Proof.Machine
end
